-- ==== Sys2Proof/Word.lean ====
section
/-! DEFINITION. The word types of the HPU (spec/10_state.md R26, R46 to R54). Every value is unsigned (R15). -/

namespace Sys2Proof

/-- A register of the window, a command word, the argument (R26: every register is 32 bits wide). -/
abbrev Word := BitVec 32

/-- A byte of the FIFOs; also a symbol, 0..255 (R9 `ALPHABET`, R52). -/
abbrev Byte := BitVec 8

/-- An index into the node arena: 9 bits (R47). The arena has the entries 0..510 only. -/
abbrev NodeIdx := BitVec 9

/-- A tree-node weight: 40 bits, unsigned (R9 `WEIGHT_W`, R47). -/
abbrev Weight := BitVec 40

end Sys2Proof
end

