-- ==== Sys2Proof/Config.lean ====
section
/-! DEFINITION. The open parameters of an HPU instance (spec/00_scope.md R10): the two FIFO capacities.
They are plain data held in State, so that every statement holds for every instance and a machine of
any depth can be run; no step changes them (R45). -/

namespace Sys2Proof

/-- R10: `IN_DEPTH` and `OUT_DEPTH`, each 1..65535. Sixteen bits give the upper bound; PARAM shows
them in its two 16-bit halves (R45). -/
structure Config where
  inDepth  : BitVec 16
  outDepth : BitVec 16
  deriving DecidableEq, Repr

/-- R10: `1 <= depth <= 65535`. -/
abbrev Config.Valid (c : Config) : Prop := c.inDepth ≠ 0 ∧ c.outDepth ≠ 0

/-- R10: the reference configuration, `IN_DEPTH = 16`, `OUT_DEPTH = 16`. -/
def Config.reference : Config := { inDepth := 16, outDepth := 16 }

end Sys2Proof
end

