-- ==== Sys2Proof/Syntax.lean ====
section
/-! DEFINITION. Syntax: the 18 commands of spec/opcode_table.json (spec/30_encoding.md R78 to R80), the
names of the register window (spec/10_state.md R26) and the host-script lines (spec/30_encoding.md R86, R87). -/

namespace Sys2Proof

/-- The HPU command set, version 1.0: one constructor per row of R80. The operand fields have the
widths of R78 (`SYM` 8, `IDX` 9, `W` 3, `PADF` 8 bits); the 32-bit argument comes from CARG (R77). -/
inductive Instr where
  | nop
  | reset
  | fifoClr (clrIn clrOut : Bool)
  | ftClear
  | ftCount
  | ftLoad (sym : Byte)
  | ftGet (idx : BitVec 9)
  | ftRead (sym : Byte)
  | treeBuild
  | codeGen
  | nodeRead (idx : NodeIdx)
  | codeRead (sym : Byte) (w : BitVec 3)
  | encInit
  | encData
  | encFlush
  | decInit (padf : Byte)
  | decData
  | decFinish
  deriving DecidableEq, Repr

/-- The named registers of the window (R26). -/
inductive Reg where
  | id | version | ctrl | status | cmd | arg | errcode | errinfo
  | result0 | result1 | result2 | result3
  | dataIn | dataOut | fifoLvl | tblSize | treeInfo | pad
  | bitcntLo | bitcntHi | decRem | symcnt | param
  deriving DecidableEq, Repr

/-- One line of a host script: the two base forms of R86 and the pseudo-commands of R87. The
operands are the numbers as written; WellFormed.lean refuses those that do not fit their fields. -/
inductive ScriptLine where
  | wr (reg : Reg) (v : Nat)
  | rd (reg : Reg)
  | nop
  | reset
  | fifoClr (clrIn clrOut : Nat)
  | ftClear
  | ftCount (n : Nat)
  | ftLoad (s c : Nat)
  | ftGet (k : Nat)
  | ftRead (s : Nat)
  | treeBuild
  | codeGen
  | nodeRead (i : Nat)
  | codeRead (s w : Nat)
  | encInit
  | encData (n : Nat)
  | encFlush
  | decInit (pad p : Nat)
  | decData (n : Nat)
  | decFinish
  | push (bytes : List Nat)
  | pop (n : Nat)
  | wait
  | clrErr
  deriving DecidableEq, Repr

end Sys2Proof
end

