-- ==== Sys2Proof/WellFormed.lean ====
section
/-! DEFINITION. Well-formedness (spec/30_encoding.md R78, R87). A command's operand fields carry their width
in their type, so EVERY term of `Instr` is well formed: a value a command cannot use (`IDX`, `PADF`) is caught
by the command's own check, not here (R79). What can be ill formed is a host script, whose operands are numbers:
"a script that gives a wider value is ill-formed (it is not silently truncated)" (R87). -/

namespace Sys2Proof

/-- A value fits a field of `bits` bits. -/
def fits (bits v : Nat) : Bool := decide (v < 2 ^ bits)

/-- R87: the operands of a script line fit their fields (R78) or the 32-bit register they are written to;
a pushed byte fits the 8 bits DATA_IN uses (R36). -/
def ScriptLine.wellFormed : ScriptLine → Bool
  | .wr _ v => fits 32 v
  | .rd _ => true
  | .nop | .reset | .ftClear | .treeBuild | .codeGen | .encInit | .encFlush | .decFinish => true
  | .fifoClr i o => fits 1 i && fits 1 o
  | .ftCount n => fits 32 n
  | .ftLoad s c => fits 8 s && fits 32 c
  | .ftGet k => fits 9 k
  | .ftRead s => fits 8 s
  | .nodeRead i => fits 9 i
  | .codeRead s w => fits 8 s && fits 3 w
  | .encData n => fits 32 n
  | .decInit pad p => fits 8 pad && fits 32 p
  | .decData n => fits 32 n
  | .push bytes => bytes.all (fits 8)
  | .pop _ | .wait | .clrErr => true

/-- A script is well formed when every line is. -/
def Script.wellFormed (ls : List ScriptLine) : Bool := ls.all ScriptLine.wellFormed

end Sys2Proof
end

