-- ==== Sys2Proof/Decode.lean ====
section
/-! DEFINITION. The decoder: total on every 32-bit command word, one row per line of the opcode map of
spec/30_encoding.md R80, rejecting by name; then the encoder, written from the same map and the script
expansions of R87. -/

namespace Sys2Proof

/-! ### Operand fields (R78, R79): unsigned, no scaling -/

/-- `OP = CMD[31:24]`. -/
def opField (w : Word) : BitVec 8 := w.extractLsb' 24 8
/-- `SYM = CMD[7:0]`. -/
def symField (w : Word) : Byte := w.extractLsb' 0 8
/-- `IDX = CMD[8:0]`. -/
def idxField (w : Word) : BitVec 9 := w.extractLsb' 0 9
/-- `W = CMD[10:8]`. -/
def wField (w : Word) : BitVec 3 := w.extractLsb' 8 3
/-- `PADF = CMD[7:0]`. -/
def padField (w : Word) : Byte := w.extractLsb' 0 8
/-- `CLR_IN = CMD[0]`. -/
def clrInField (w : Word) : Bool := w.getLsbD 0
/-- `CLR_OUT = CMD[1]`. -/
def clrOutField (w : Word) : Bool := w.getLsbD 1

/-- One row of the opcode map: the bits that must match (OP plus every reserved bit) and the
operands read from the rest. -/
structure OpRow where
  pattern : Word
  mask    : Word
  make    : Word → Instr

/-- R80: a word `v` spells the row when `(v AND mask) = match`. -/
def OpRow.spells (r : OpRow) (v : Word) : Bool := v &&& r.mask == r.pattern

/-- The rows with no reserved operand bits to spare: the control commands and format Z (R80). -/
def formatZRows : List OpRow := [
  ⟨0x00000000, 0xFFFFFFFF, fun _ => .nop⟩,
  ⟨0x01000000, 0xFFFFFFFF, fun _ => .reset⟩,
  ⟨0x10000000, 0xFFFFFFFF, fun _ => .ftClear⟩,
  ⟨0x11000000, 0xFFFFFFFF, fun _ => .ftCount⟩,
  ⟨0x20000000, 0xFFFFFFFF, fun _ => .treeBuild⟩,
  ⟨0x21000000, 0xFFFFFFFF, fun _ => .codeGen⟩,
  ⟨0x30000000, 0xFFFFFFFF, fun _ => .encInit⟩,
  ⟨0x31000000, 0xFFFFFFFF, fun _ => .encData⟩,
  ⟨0x32000000, 0xFFFFFFFF, fun _ => .encFlush⟩,
  ⟨0x41000000, 0xFFFFFFFF, fun _ => .decData⟩,
  ⟨0x42000000, 0xFFFFFFFF, fun _ => .decFinish⟩]

/-- The rows with an operand field: formats C, S, I, SW and P (R78, R80). -/
def operandRows : List OpRow := [
  ⟨0x02000000, 0xFFFFFFFC, fun w => .fifoClr (clrInField w) (clrOutField w)⟩,
  ⟨0x12000000, 0xFFFFFF00, fun w => .ftLoad (symField w)⟩,
  ⟨0x13000000, 0xFFFFFE00, fun w => .ftGet (idxField w)⟩,
  ⟨0x14000000, 0xFFFFFF00, fun w => .ftRead (symField w)⟩,
  ⟨0x22000000, 0xFFFFFE00, fun w => .nodeRead (idxField w)⟩,
  ⟨0x23000000, 0xFFFFF800, fun w => .codeRead (symField w) (wField w)⟩,
  ⟨0x40000000, 0xFFFFFF00, fun w => .decInit (padField w)⟩]

/-- The opcode map of R80. -/
def opcodeMap : List OpRow := formatZRows ++ operandRows

/-- Why a word spells no command (R82): its opcode is one of the 238 unassigned ones, or a reserved
bit of an assigned opcode is set. -/
inductive DecodeError where
  | unassignedOpcode (w : Word)
  | reservedBitSet (w : Word)
  deriving DecidableEq, Repr

/-- The command a word spells (R80), or the name of why it spells none (R82). -/
def decode (w : Word) : Except DecodeError Instr :=
  match opcodeMap.find? (fun r => r.spells w) with
  | some r => .ok (r.make w)
  | none =>
    if opcodeMap.any (fun r => opField r.pattern == opField w) then .error (.reservedBitSet w)
    else .error (.unassignedOpcode w)

/-- The instruction the decoder reads from a table row's word (bit 0 the least significant bit of
the one 32-bit word of R77; the bits above `nbits` are 0). -/
def decodeTableWord (nbits w : Nat) : Option Instr :=
  match decode (BitVec.ofNat 32 (w % 2 ^ nbits)) with
  | .ok i => some i
  | .error _ => none

/-! ### The encoder (R80 match words, R87 expansions) -/

/-- A one-bit operand as the number 0 or 1. -/
def bitWord (b : Bool) : Word := if b then 1 else 0

/-- The exact word of RESET, its only spelling (R83). -/
def resetWord : Word := 0x01000000

/-- The command word of a command (R80, R87). -/
def encode : Instr → Word
  | .nop => 0x00000000
  | .reset => 0x01000000
  | .fifoClr i o => 0x02000000 ||| (bitWord o <<< 1) ||| bitWord i
  | .ftClear => 0x10000000
  | .ftCount => 0x11000000
  | .ftLoad s => 0x12000000 ||| s.setWidth 32
  | .ftGet k => 0x13000000 ||| k.setWidth 32
  | .ftRead s => 0x14000000 ||| s.setWidth 32
  | .treeBuild => 0x20000000
  | .codeGen => 0x21000000
  | .nodeRead i => 0x22000000 ||| i.setWidth 32
  | .codeRead s w => 0x23000000 ||| (w.setWidth 32 <<< 8) ||| s.setWidth 32
  | .encInit => 0x30000000
  | .encData => 0x31000000
  | .encFlush => 0x32000000
  | .decInit p => 0x40000000 ||| p.setWidth 32
  | .decData => 0x41000000
  | .decFinish => 0x42000000

end Sys2Proof
end

