-- ==== Sys2Proof/Machine/State.lean ====
section
/-! DEFINITION. The state of one HPU (spec/10_state.md R26 to R54), the reasons a step can stop, and the
state after reset (R56). Plain data throughout. -/

namespace Sys2Proof.Machine

/-- R49: MODE is 0 IDLE, 1 ENC or 2 DEC; 3 is never produced, and this type has no such value. -/
inductive Mode where
  | idle | enc | dec
  deriving DecidableEq, Repr

/-- R54: `PH` is START or RUN. -/
inductive Phase where
  | start | run
  deriving DecidableEq, Repr

/-- R46: one entry of the frequency table. -/
structure FtEntry where
  present : Bool
  count   : Word
  deriving DecidableEq, Repr

/-- R47: one entry of the node arena. -/
structure NodeEntry where
  leaf  : Bool
  sym   : Byte
  left  : NodeIdx
  right : NodeIdx
  w     : Weight
  deriving DecidableEq, Repr

/-- R48: one entry of the code table; `bits` holds the code's first bit in bit `len - 1`. -/
structure CodeEntry where
  len  : BitVec 8
  bits : BitVec 255
  deriving DecidableEq, Repr

/-- R11, R12: the events of a run. A host access reads or writes the word slot of a window offset,
the reset input may act, or the engine takes a step if one is enabled. -/
inductive Event where
  | busRead (off : Word)
  | busWrite (off v : Word)
  | hwReset
  | engine
  deriving DecidableEq, Repr

/-- The HPU's state. The names in the comments are the spec's. -/
structure State where
  /-- IN_DEPTH, OUT_DEPTH (R10): fixed for the instance, never changed. -/
  cfg : Config
  /-- CTRL.DONE_IE, CTRL.ERR_IE (R29). -/
  doneIe : Bool
  errIe : Bool
  /-- The stored STATUS bits (R53). -/
  busy : Bool
  done : Bool
  err : Bool
  inOvf : Bool
  rej : Bool
  /-- ARG (R32), ERRCODE (R33), ERRINFO (R34), RESULT0..3 (R35). -/
  arg : Word
  errCode : BitVec 8
  errInfo : Word
  result0 : Word
  result1 : Word
  result2 : Word
  result3 : Word
  /-- The FIFOs IN and OUT, oldest byte first (R52). -/
  inq : List Byte
  outq : List Byte
  /-- FT (R46). -/
  ft : Vector FtEntry 256
  /-- NODE, TREE_VALID, ROOT, NODE_COUNT (R47). -/
  node : Vector NodeEntry 511
  treeValid : Bool
  root : NodeIdx
  nodeCount : NodeIdx
  /-- CODE, CODES_VALID (R48). -/
  code : Vector CodeEntry 256
  codesValid : Bool
  /-- MODE (R49). -/
  mode : Mode
  /-- ENC.acc, ENC.acc_n (0..8), ENC.sr, ENC.sr_n, BITCNT, PAD (R50). -/
  encAcc : Byte
  encAccN : Fin 9
  encSr : BitVec 255
  encSrN : BitVec 8
  bitcnt : BitVec 64
  pad : BitVec 3
  /-- DEC.rem, DEC.walk, DEC.sh, DEC.sh_n (0..8), SYMCNT (R51). -/
  decRem : Word
  decWalk : NodeIdx
  decSh : Byte
  decShN : Fin 9
  symcnt : Word
  /-- CUR, CARG, PH, CNT (R54). -/
  cur : Word
  carg : Word
  ph : Phase
  cnt : Word
  /-- MODEL'S OWN (not the spec's): the events still to come, in the order they happen. Any list is
  admitted, so any interleaving is (R12); when it is empty the engine moves (R13). -/
  events : List Event
  /-- MODEL'S OWN (not the spec's): the words the host's reads have returned, oldest first. -/
  reads : List Word
  deriving DecidableEq, Repr

/-- Why a step can stop. No command the spec gives an effect to stops in a state that a run reaches:
these name corners of the state space that no rule describes. -/
inductive Fault where
  /-- Raised by the engine step when `PH = RUN` and CUR spells no streaming command: no rule gives such
  a command a RUN step (R91, R92). No run reaches it. Safe: the machine stops. -/
  | noRunStep
  /-- Raised by DEC_DATA, CODE_GEN and NODE_READ when they need entry 511 of NODE, whose entries are
  0..510 (R47). No run reaches it. Safe: the machine stops. -/
  | noNode
  /-- Raised by CODE_GEN when TREE_VALID = 1 but the arena under ROOT is no tree, so that a node has no
  path from ROOT (R118 speaks of "the path"). No run reaches it (R116). Safe: the machine stops. -/
  | noPath
  deriving DecidableEq, Repr

/-- Why an instruction has no meaning. -/
inductive Refusal where
  /-- Raised by `exec` for an instruction that has no meaning yet. Safe: the machine stops. -/
  | notModelled (mnemonic : String)
  deriving DecidableEq, Repr

/-- R56: a table entry after reset. -/
def FtEntry.zero : FtEntry := { present := false, count := 0 }

/-- R56 leaves NODE unspecified after reset; the model holds zeros there (DESIGN CHOICE, log 2). -/
def NodeEntry.zero : NodeEntry := { leaf := false, sym := 0, left := 0, right := 0, w := 0 }

/-- The entry CODE_GEN gives a symbol with no code (R118). R56 leaves CODE unspecified after reset;
the model holds this there (DESIGN CHOICE, log 2). -/
def CodeEntry.zero : CodeEntry := { len := 0, bits := 0 }

/-- R56: the machine right after reset, in the reference configuration (R10). -/
def State.reset : State where
  cfg := Config.reference
  doneIe := false
  errIe := false
  busy := false
  done := false
  err := false
  inOvf := false
  rej := false
  arg := 0
  errCode := 0
  errInfo := 0
  result0 := 0
  result1 := 0
  result2 := 0
  result3 := 0
  inq := []
  outq := []
  ft := Vector.replicate 256 FtEntry.zero
  node := Vector.replicate 511 NodeEntry.zero
  treeValid := false
  root := 0
  nodeCount := 0
  code := Vector.replicate 256 CodeEntry.zero
  codesValid := false
  mode := .idle
  encAcc := 0
  encAccN := 0
  encSr := 0
  encSrN := 0
  bitcnt := 0
  pad := 0
  decRem := 0
  decWalk := 0
  decSh := 0
  decShN := 0
  symcnt := 0
  cur := 0
  carg := 0
  ph := .start
  cnt := 0
  events := []
  reads := []

end Sys2Proof.Machine
end

