-- ==== Sys2Proof/Machine/Operands.lean ====
section
/-! DEFINITION. What a command reads: zero extension (spec/00_scope.md R15), the FIFO primitives (R18), the
three internal tables (spec/10_state.md R46 to R48), the present entries in ascending symbol order
(spec/41_frequency.md R108, spec/42_tree_code.md R112) and the decoder's walk (spec/44_decode_unpack.md R129).
Operand fields of the command word are read by Decode.lean (R78, R79). -/

namespace Sys2Proof.Machine

/-- `zext_32(v)` (R15). -/
abbrev zext {n : Nat} (v : BitVec n) : Word := v.setWidth 32

/-- MODE's two-bit value (R49). -/
def modeBits : Mode → BitVec 2
  | .idle => 0
  | .enc => 1
  | .dec => 2

/-! ### FIFOs (R18) -/

/-- `Empty(IN)`. -/
def inEmpty (s : State) : Bool := s.inq.length == 0
/-- `Full(IN)`: `Len(IN) = IN_DEPTH`. -/
def inFull (s : State) : Bool := s.inq.length == s.cfg.inDepth.toNat
/-- `Empty(OUT)`. -/
def outEmpty (s : State) : Bool := s.outq.length == 0
/-- `Full(OUT)`: `Len(OUT) = OUT_DEPTH`. -/
def outFull (s : State) : Bool := s.outq.length == s.cfg.outDepth.toNat

/-! ### Tables -/

/-- `FT[b]` (R46). -/
def ftAt (s : State) (b : Byte) : FtEntry := s.ft[b.toNat]'b.isLt

/-- `NODE[i]` (R47): the arena has entries 0..510, so a 9-bit index may name none. -/
def nodeAt (s : State) (i : NodeIdx) : Option NodeEntry := s.node[i.toNat]?

/-- `CODE[b]` (R48). -/
def codeAt (s : State) (b : Byte) : CodeEntry := s.code[b.toNat]'b.isLt

/-- `n_sym` (R39, R46): the number of present symbols. -/
def nSym (s : State) : Nat := s.ft.toList.countP (fun e => e.present)

/-- The present (symbol, count) entries in ascending symbol order: entry `k` is the symbol with exactly
`k` present symbols below it (R108, R112). -/
def presentEntries (ft : Vector FtEntry 256) : List (Byte × Word) :=
  ft.toList.zipIdx.filterMap fun (e, i) => if e.present then some (BitVec.ofNat 8 i, e.count) else none

/-! ### The decoder's walk (R129) -/

/-- What one bit does to the walk. -/
inductive WalkMove where
  | noNode
  | badBit
  | emit (sym : Byte)
  | move (nxt : NodeIdx)
  deriving DecidableEq, Repr

/-- R129: the next bit is bit 7 of DEC.sh. At a leaf (only a single-leaf tree's root) a 1 bit is an
error and a 0 bit stays there; elsewhere 0 goes left and 1 goes right; arriving at a leaf emits its
symbol. -/
def walkMove (s : State) : WalkMove :=
  let bit := s.decSh.getLsbD 7
  match nodeAt s s.decWalk with
  | none => .noNode
  | some e =>
    if e.leaf && bit then .badBit
    else
      let nxt := if e.leaf then s.decWalk else if bit then e.right else e.left
      match nodeAt s nxt with
      | none => .noNode
      | some f => if f.leaf then .emit f.sym else .move nxt

end Sys2Proof.Machine
end

