-- ==== Sys2Proof/Machine/Flags.lean ====
section
/-! DEFINITION. Every flag the spec computes from the state: the stalls (spec/40_engine_control.md R90, R95,
R96), the end of a command (R103), the STATUS word (spec/10_state.md R30) and the interrupt output (spec/60_exceptions.md R154). -/

namespace Sys2Proof.Machine

/-- R95: what a stalled command waits for. -/
inductive Stall where
  | stallIn | stallOut
  deriving DecidableEq, Repr

/-- R91: the commands that have a RUN step. -/
def streaming : Instr → Bool
  | .ftCount | .encData | .encFlush | .decData => true
  | .nop | .reset | .fifoClr _ _ | .ftClear | .ftLoad _ | .ftGet _ | .ftRead _ | .treeBuild | .codeGen
  | .nodeRead _ | .codeRead _ _ | .encInit | .decInit _ | .decFinish => false

/-- Waiting for a byte: `CNT > 0` and IN is empty. -/
def stallOnIn (s : State) : Option Stall := if s.cnt ≠ 0 ∧ inEmpty s then some .stallIn else none

/-- Waiting for room in OUT. -/
def stallOnOut (s : State) : Option Stall := if outFull s then some .stallOut else none

/-- Whether the RUN step of a command is a stall in the current state: FT_COUNT (R105), ENC_DATA
(R123), ENC_FLUSH (R124), DEC_DATA (R129). -/
def runStall : Instr → State → Option Stall
  | .ftCount, s => stallOnIn s
  | .encData, s => if s.encAccN = 8 then stallOnOut s else if s.encSrN ≠ 0 then none else stallOnIn s
  | .encFlush, s => if s.encAccN ≠ 0 then stallOnOut s else none
  | .decData, s =>
    if s.decShN ≠ 0 then
      match walkMove s with
      | .emit _ => stallOnOut s
      | .move _ | .badBit | .noNode => none
    else stallOnIn s
  | .nop, _ | .reset, _ | .fifoClr _ _, _ | .ftClear, _ | .ftLoad _, _ | .ftGet _, _ | .ftRead _, _ => none
  | .treeBuild, _ | .codeGen, _ | .nodeRead _, _ | .codeRead _ _, _ | .encInit, _ | .decInit _, _ => none
  | .decFinish, _ => none

/-- R96: the stall of the command in CUR, when `BUSY = 1` and `PH = RUN`. -/
def stallOf (s : State) : Option Stall :=
  if s.busy ∧ s.ph = .run then
    match decode s.cur with
    | .ok i => runStall i s
    | .error _ => none
  else none

/-- R90: the engine step is enabled exactly when `BUSY = 1` and either `PH = START`, or `PH = RUN` and
the RUN step of the command in CUR is not a stall. -/
def engineEnabled (s : State) : Bool := s.busy && (stallOf s).isNone

/-- R103: the HPU is quiescent when BUSY = 0. -/
def quiescent (s : State) : Bool := !s.busy

/-- R103: a command has ended successfully: BUSY = 0 and DONE = 1. -/
def endedInSuccess (s : State) : Bool := quiescent s && s.done

/-- R103: a command has ended in error: BUSY = 0 and ERR = 1. -/
def endedInError (s : State) : Bool := quiescent s && s.err

/-- STATUS as read (R30), bit 31 first. -/
def statusWord (s : State) : Word :=
  0#16 ++ BitVec.ofBool (stallOf s == some .stallOut) ++ BitVec.ofBool (stallOf s == some .stallIn)
    ++ modeBits s.mode ++ 0#1
    ++ BitVec.ofBool s.rej ++ BitVec.ofBool s.inOvf ++ BitVec.ofBool s.codesValid ++ BitVec.ofBool s.treeValid
    ++ BitVec.ofBool (outEmpty s) ++ BitVec.ofBool (outFull s) ++ BitVec.ofBool (inEmpty s) ++ BitVec.ofBool (inFull s)
    ++ BitVec.ofBool s.err ++ BitVec.ofBool s.done ++ BitVec.ofBool s.busy

/-- R154: the IRQ output, `(DONE AND DONE_IE) OR (ERR AND ERR_IE)`. -/
def irq (s : State) : Bool := (s.done && s.doneIe) || (s.err && s.errIe)

end Sys2Proof.Machine
end

