-- ==== Sys2Proof/Machine/Ops.lean ====
section
/-! DEFINITION. The named operations the commands share: completing (spec/40_engine_control.md R93), raising an
error, which is how this hardware takes an exception (R94, spec/60_exceptions.md R151), acknowledging it,
which is the return (R152), `Invalidate()` (R97), `ResetState()` (R163), accepting a command (R88) and the
writes to the FIFOs and tables (R18, R46, R47). -/

namespace Sys2Proof.Machine

/-- R148: the errors. -/
inductive ErrCode where
  | badCmd | emptyInput | noTree | noCodes | noCode | countOvf | dupSymbol | badIndex
  | badPad | badLen | decOverrun | decTrunc | decPartial | badMode | decBadbit
  deriving DecidableEq, Repr

/-- R148: the value ERRCODE reads. -/
def errCodeBits : ErrCode → BitVec 8
  | .badCmd => 0x01
  | .emptyInput => 0x02
  | .noTree => 0x03
  | .noCodes => 0x04
  | .noCode => 0x05
  | .countOvf => 0x06
  | .dupSymbol => 0x07
  | .badIndex => 0x08
  | .badPad => 0x09
  | .badLen => 0x0A
  | .decOverrun => 0x0B
  | .decTrunc => 0x0C
  | .decPartial => 0x0D
  | .badMode => 0x0E
  | .decBadbit => 0x0F

/-- `complete()` (R93). -/
def complete (s : State) : State := { s with busy := false, done := true, ph := .start }

/-- `raise Error(code, info)` (R94, R151): the error's entry. Nothing else of the raising step is
written, and nothing else is saved. -/
def raiseError (c : ErrCode) (info : Word) (s : State) : State :=
  { s with busy := false, err := true, errCode := errCodeBits c, errInfo := info, ph := .start }

/-- R152: the acknowledgement of an error, "the whole return". -/
def acknowledgeError (s : State) : State := { s with err := false, errCode := 0, errInfo := 0 }

/-- `Invalidate()` (R97). -/
def invalidate (s : State) : State := { s with treeValid := false, codesValid := false, mode := .idle }

/-- `ResetState()` (R100, R163): every piece of the HPU's state takes its reset value (R56). The FIFO
depths are constants of the instance (R45); the host's events and what it has read are not HPU state. -/
def resetState (s : State) : State :=
  { State.reset with cfg := s.cfg, events := s.events, reads := s.reads }

/-- R88, the accepting branch: the word and the argument are latched and the command starts. -/
def acceptCommand (v : Word) (s : State) : State :=
  { s with cur := v, carg := s.arg, ph := .start, busy := true, done := false }

/-- The start part of a streaming command that raises nothing: it sets `PH <- RUN` (R91). -/
def startStream (n : Word) (s : State) : State := { s with cnt := n, ph := .run }

/-- `Push(OUT, b)` (R18). -/
def pushOut (b : Byte) (s : State) : State := { s with outq := s.outq ++ [b] }

/-- `FT[b] <- e` (R46). -/
def ftSet (b : Byte) (e : FtEntry) (s : State) : State := { s with ft := s.ft.set b.toNat e b.isLt }

/-- `NODE[i] <- e` for consecutive entries from index `k` on (R117); the others keep their values. -/
def storeNodes : List NodeEntry → Nat → Vector NodeEntry 511 → Vector NodeEntry 511
  | [], _, v => v
  | e :: es, k, v => storeNodes es (k + 1) (v.setIfInBounds k e)

end Sys2Proof.Machine
end

