-- ==== Sys2Proof/Machine/Bus.lean ====
section
/-! DEFINITION. The register window and what a host access does (spec/10_state.md R26 to R45,
spec/20_memory.md R57 to R63, spec/40_engine_control.md R88). Every access is performed and completes in its
own event (R62, R69). -/

namespace Sys2Proof.Machine

/-- The byte offset of a register (R26). -/
def regOffset : Reg → Word
  | .id => 0x00
  | .version => 0x04
  | .ctrl => 0x08
  | .status => 0x0C
  | .cmd => 0x10
  | .arg => 0x14
  | .errcode => 0x18
  | .errinfo => 0x1C
  | .result0 => 0x20
  | .result1 => 0x24
  | .result2 => 0x28
  | .result3 => 0x2C
  | .dataIn => 0x30
  | .dataOut => 0x34
  | .fifoLvl => 0x38
  | .tblSize => 0x3C
  | .treeInfo => 0x40
  | .pad => 0x44
  | .bitcntLo => 0x48
  | .bitcntHi => 0x4C
  | .decRem => 0x50
  | .symcnt => 0x54
  | .param => 0x58

/-- The registers in the order of the map (R26). -/
def allRegs : List Reg :=
  [.id, .version, .ctrl, .status, .cmd, .arg, .errcode, .errinfo, .result0, .result1, .result2, .result3,
   .dataIn, .dataOut, .fifoLvl, .tblSize, .treeInfo, .pad, .bitcntLo, .bitcntHi, .decRem, .symcnt, .param]

/-- R58: an access is to the slot `off[7:2]`; bits [1:0] are ignored and the bits above 7 are not
seen (R59). -/
def slotOf (off : Word) : BitVec 6 := off.extractLsb' 2 6

/-- The register in a slot; a reserved slot (0x5C..0xFC) has none (R26, R60). -/
def regAt (off : Word) : Option Reg := allRegs.find? fun r => slotOf (regOffset r) == slotOf off

/-- DATA_OUT's value (R37): `{1, b}` for the oldest byte `b` of OUT, 0 when OUT is empty. -/
def dataOutWord (s : State) : Word :=
  match s.outq with
  | [] => 0
  | b :: _ => zext (1#1 ++ b)

/-- TREE_INFO (R40): ROOT in [8:0] and NODE_COUNT in [24:16] while the tree is valid, else 0. -/
def treeInfoWord (s : State) : Word := if s.treeValid then zext (s.nodeCount ++ 0#7 ++ s.root) else 0

/-- The value a read returns (R26 to R45); write-only registers read 0 (R61). -/
def readReg (r : Reg) (s : State) : Word :=
  match r with
  | .id => 0x48554646
  | .version => 0x00010000
  | .ctrl => zext (BitVec.ofBool s.errIe ++ BitVec.ofBool s.doneIe)
  | .status => statusWord s
  | .cmd => 0
  | .arg => s.arg
  | .errcode => zext s.errCode
  | .errinfo => s.errInfo
  | .result0 => s.result0
  | .result1 => s.result1
  | .result2 => s.result2
  | .result3 => s.result3
  | .dataIn => 0
  | .dataOut => dataOutWord s
  | .fifoLvl => BitVec.ofNat 16 s.outq.length ++ BitVec.ofNat 16 s.inq.length
  | .tblSize => BitVec.ofNat 32 (nSym s)
  | .treeInfo => treeInfoWord s
  | .pad => zext s.pad
  | .bitcntLo => s.bitcnt.extractLsb' 0 32
  | .bitcntHi => s.bitcnt.extractLsb' 32 32
  | .decRem => s.decRem
  | .symcnt => s.symcnt
  | .param => s.cfg.outDepth ++ s.cfg.inDepth

/-- The effect of a read beyond its value: only DATA_OUT has one, it pops OUT (R37, R63). -/
def readEffect (r : Reg) (s : State) : State :=
  match r with
  | .dataOut => { s with outq := s.outq.tail }
  | .id | .version | .ctrl | .status | .cmd | .arg | .errcode | .errinfo | .result0 | .result1 | .result2
  | .result3 | .dataIn | .fifoLvl | .tblSize | .treeInfo | .pad | .bitcntLo | .bitcntHi | .decRem | .symcnt
  | .param => s

/-- `BusRead(off)` (R19): the value; a reserved slot reads 0 (R60). -/
def busReadValue (off : Word) (s : State) : Word :=
  match regAt off with
  | none => 0
  | some r => readReg r s

/-- `BusRead(off)` (R19): the state after it. -/
def busReadState (off : Word) (s : State) : State :=
  match regAt off with
  | none => s
  | some r => readEffect r s

/-- A CMD write (R88): RESET acts at once in any state (R100); any other word is dropped and sets REJ
while BUSY or ERR is 1, and is accepted otherwise. -/
def writeCmd (v : Word) (s : State) : State :=
  if v = resetWord then resetState s
  else if s.busy || s.err then { s with rej := true }
  else acceptCommand v s

/-- A DATA_IN write (R36). -/
def writeDataIn (v : Word) (s : State) : State :=
  if inFull s then { s with inOvf := true } else { s with inq := s.inq ++ [v.extractLsb' 0 8] }

/-- A STATUS write (R30): bits 1, 2, 9 and 10 are cleared by writing 1; clearing ERR is the
acknowledgement of the error (R152). -/
def writeStatus (v : Word) (s : State) : State :=
  let a := if v.getLsbD 2 then acknowledgeError s else s
  { a with
    done := a.done && !v.getLsbD 1
    inOvf := a.inOvf && !v.getLsbD 9
    rej := a.rej && !v.getLsbD 10 }

/-- A write to a register; a write to a read-only one is ignored as a whole (R61). -/
def writeReg (r : Reg) (v : Word) (s : State) : State :=
  match r with
  | .ctrl => { s with doneIe := v.getLsbD 0, errIe := v.getLsbD 1 }
  | .status => writeStatus v s
  | .cmd => writeCmd v s
  | .arg => { s with arg := v }
  | .dataIn => writeDataIn v s
  | .id | .version | .errcode | .errinfo | .result0 | .result1 | .result2 | .result3 | .dataOut | .fifoLvl
  | .tblSize | .treeInfo | .pad | .bitcntLo | .bitcntHi | .decRem | .symcnt | .param => s

/-- `BusWrite(off, v)` (R19); a write to a reserved slot is ignored (R60). -/
def busWrite (off v : Word) (s : State) : State :=
  match regAt off with
  | none => s
  | some r => writeReg r v s

end Sys2Proof.Machine
end

