-- ==== Sys2Proof/Machine/Control.lean ====
section
/-! DEFINITION. Engine control: NOP, RESET, FIFO_CLR (spec/40_engine_control.md R99 to R101). -/

namespace Sys2Proof.Machine

/-- NOP (R99): "do nothing". -/
def execNop (s : State) : Host.Outcome State Fault Refusal := .next (complete s)

/-- RESET (R100): `ResetState()`. It acts at the CMD write itself; the engine never executes it, since
a START step that finds it in CUR raises BAD_CMD (R91). -/
def execReset (s : State) : Host.Outcome State Fault Refusal := .next (resetState s)

/-- FIFO_CLR (R101). -/
def execFifoClr (clrIn clrOut : Bool) (s : State) : Host.Outcome State Fault Refusal :=
  .next (complete { s with
    inq := if clrIn then [] else s.inq
    outq := if clrOut then [] else s.outq })

end Sys2Proof.Machine
end

