-- ==== Sys2Proof/Machine/EncodePack.lean ====
section
/-! DEFINITION. Encoding and bit packing: ENC_INIT, ENC_DATA, ENC_FLUSH (spec/43_encode_pack.md R122 to R124).
Bits are packed most significant first (spec/20_memory.md R64), the filler is the low-order bits (R65). -/

namespace Sys2Proof.Machine

/-- ENC_INIT (R122). -/
def execEncInit (s : State) : Host.Outcome State Fault Refusal :=
  if s.codesValid = false then .next (raiseError .noCodes 0 s)
  else .next (complete { s with
    mode := .enc, encAcc := 0, encAccN := 0, encSr := 0, encSrN := 0, bitcnt := 0, pad := 0 })

/-- ENC_DATA, a full group (R123): emit it and start the next one. -/
def emitGroup (s : State) : State := pushOut s.encAcc { s with encAcc := 0, encAccN := 0 }

/-- ENC_DATA, one code bit (R123): `bit <- ENC.sr[ENC.sr_n - 1]` enters the accumulator at the right. -/
def shiftBit (s : State) : State :=
  { s with
    encAcc := (s.encAcc <<< 1) ||| (BitVec.ofBool (s.encSr.getLsbD (s.encSrN.toNat - 1))).setWidth 8
    encAccN := s.encAccN + 1
    encSrN := s.encSrN - 1
    bitcnt := s.bitcnt + 1 }

/-- ENC_DATA's RUN step (R123): exactly one branch, tried in this order. -/
def encDataRun (s : State) : Host.Outcome State Fault Refusal :=
  if s.encAccN = 8 then
    if outFull s then .next s else .next (emitGroup s)
  else if s.encSrN ≠ 0 then .next (shiftBit s)
  else if s.cnt ≠ 0 then
    match s.inq with
    | [] => .next s
    | b :: rest =>
      if (codeAt s b).len = 0 then .next (raiseError .noCode (zext b) s)
      else .next { s with
        inq := rest, encSr := (codeAt s b).bits, encSrN := (codeAt s b).len, cnt := s.cnt - 1 }
  else .next (complete s)

/-- ENC_DATA (R123). -/
def execEncData (s : State) : Host.Outcome State Fault Refusal :=
  match s.ph with
  | .start =>
    if s.mode ≠ .enc then .next (raiseError .badMode (zext (modeBits s.mode)) s)
    else .next (startStream s.carg s)
  | .run => encDataRun s

/-- ENC_FLUSH's end (R124): PAD is `p`, the stream is closed and the results are written. -/
def closeStream (p : Nat) (s : State) : State :=
  complete { s with
    pad := BitVec.ofNat 3 p, encAcc := 0, encAccN := 0, mode := .idle
    result0 := BitVec.ofNat 32 p
    result1 := s.bitcnt.extractLsb' 0 32
    result2 := s.bitcnt.extractLsb' 32 32 }

/-- ENC_FLUSH's RUN step (R124): a partial group is shifted to the left end of its byte. -/
def encFlushRun (s : State) : Host.Outcome State Fault Refusal :=
  if s.encAccN ≠ 0 then
    if outFull s then .next s
    else .next (closeStream (8 - s.encAccN.val) (pushOut (s.encAcc <<< (8 - s.encAccN.val)) s))
  else .next (closeStream 0 s)

/-- ENC_FLUSH (R124). -/
def execEncFlush (s : State) : Host.Outcome State Fault Refusal :=
  match s.ph with
  | .start =>
    if s.mode ≠ .enc then .next (raiseError .badMode (zext (modeBits s.mode)) s)
    else .next { s with ph := .run }
  | .run => encFlushRun s

end Sys2Proof.Machine
end

