-- ==== Sys2Proof/Machine/Frequency.lean ====
section
/-! DEFINITION. The frequency table: FT_CLEAR, FT_COUNT, FT_LOAD, FT_GET, FT_READ
(spec/41_frequency.md R104 to R110). -/

namespace Sys2Proof.Machine

/-- FT_CLEAR (R104). -/
def execFtClear (s : State) : Host.Outcome State Fault Refusal :=
  .next (complete (invalidate { s with ft := Vector.replicate 256 FtEntry.zero }))

/-- FT_COUNT's RUN step (R105). A count that is already 2^32 - 1 raises COUNT_OVF and leaves the byte
in IN. -/
def ftCountRun (s : State) : Host.Outcome State Fault Refusal :=
  if s.cnt = 0 then .next (complete s)
  else match s.inq with
    | [] => .next s
    | b :: rest =>
      if (ftAt s b).count = 0xFFFFFFFF then .next (raiseError .countOvf (zext b) s)
      else .next (ftSet b { present := true, count := (ftAt s b).count + 1 }
        { s with inq := rest, cnt := s.cnt - 1 })

/-- FT_COUNT (R105). -/
def execFtCount (s : State) : Host.Outcome State Fault Refusal :=
  match s.ph with
  | .start => .next (startStream s.carg (invalidate s))
  | .run => ftCountRun s

/-- FT_LOAD (R107). -/
def execFtLoad (sym : Byte) (s : State) : Host.Outcome State Fault Refusal :=
  if (ftAt s sym).present then .next (raiseError .dupSymbol (zext sym) s)
  else .next (complete (invalidate (ftSet sym { present := true, count := s.carg } s)))

/-- FT_GET (R108): the `k`-th present entry; there is none exactly when `k >= n_sym`. -/
def execFtGet (k : BitVec 9) (s : State) : Host.Outcome State Fault Refusal :=
  match (presentEntries s.ft)[k.toNat]? with
  | none => .next (raiseError .badIndex (zext k) s)
  | some (sym, count) => .next (complete { s with result0 := zext sym, result1 := count })

/-- FT_READ (R109). -/
def execFtRead (sym : Byte) (s : State) : Host.Outcome State Fault Refusal :=
  .next (complete { s with
    result0 := zext (BitVec.ofBool (ftAt s sym).present)
    result1 := (ftAt s sym).count })

end Sys2Proof.Machine
end

