-- ==== Sys2Proof/Machine/Tree.lean ====
section
/-! DEFINITION. The tree builder and the code generator: TREE_BUILD, CODE_GEN, NODE_READ, CODE_READ
(spec/42_tree_code.md R111 to R121). -/

namespace Sys2Proof.Machine

/-! ### The tree-building algorithm (R111 to R114) -/

/-- A member of the min-priority structure `A`: a node's index with its weight. -/
structure Cand where
  w   : Weight
  idx : Nat
  deriving DecidableEq, Repr

/-- R113: the key of node `i` is `(NODE[i].w, i)`, compared lexicographically. -/
def keyLt (a b : Cand) : Bool := a.w.ult b.w || (a.w == b.w && decide (a.idx < b.idx))

/-- The least of a non-empty list of candidates. -/
def least (c : Cand) : List Cand → Cand
  | [] => c
  | d :: ds => least (if keyLt d c then d else c) ds

/-- "x <- the element of A with the least key; A <- A \ {x}" (R117). -/
def takeLeast : List Cand → Option (Cand × List Cand)
  | [] => none
  | c :: cs => some (least c cs, (c :: cs).erase (least c cs))

/-- One leaf per present entry, in ascending symbol order (R112, R114). -/
def leafNodes (es : List (Byte × Word)) : List NodeEntry :=
  es.map fun (s, c) => { leaf := true, sym := s, left := 0, right := 0, w := c.setWidth 40 }

/-- `A <- {0, .., n-1}` (R117). -/
def leafCands (es : List (Byte × Word)) : List Cand :=
  es.zipIdx.map fun (e, i) => { w := e.2.setWidth 40, idx := i }

/-- The loop "while |A| >= 2" of R117: the arena built so far (its length is `next`) and `A`. Each
round takes the two least nodes and appends their parent, so `n` rounds are more than enough. -/
def mergeLoop : Nat → List Cand → List NodeEntry → List Cand × List NodeEntry
  | 0, a, ns => (a, ns)
  | k + 1, a, ns =>
    match takeLeast a with
    | none => (a, ns)
    | some (x, a1) =>
      match takeLeast a1 with
      | none => (a, ns)
      | some (y, a2) =>
        mergeLoop k (a2 ++ [{ w := x.w + y.w, idx := ns.length }])
          (ns ++ [{ leaf := false, sym := 0, left := BitVec.ofNat 9 x.idx, right := BitVec.ofNat 9 y.idx,
                    w := x.w + y.w }])

/-- The arena R117 builds from the present entries, and its ROOT, the one element left in `A`. -/
def buildTree (es : List (Byte × Word)) : List NodeEntry × NodeIdx :=
  let r := mergeLoop es.length (leafCands es) (leafNodes es)
  (r.2, match r.1 with
    | [] => 0
    | c :: _ => BitVec.ofNat 9 c.idx)

/-- TREE_BUILD (R117). -/
def execTreeBuild (s : State) : Host.Outcome State Fault Refusal :=
  if nSym s = 0 then .next (raiseError .emptyInput 0 s)
  else
    let t := buildTree (presentEntries s.ft)
    .next (complete { s with
      node := storeNodes t.1 0 s.node
      root := t.2
      nodeCount := BitVec.ofNat 9 t.1.length
      treeValid := true
      codesValid := false
      mode := .idle
      result0 := zext t.2
      result1 := BitVec.ofNat 32 t.1.length })

/-! ### Codes (R118) -/

/-- Every leaf under node `i` with the path that leads to it (false for a left step, true for a
right step), `path` being the steps taken so far. `none` when the arena under `i` is no tree of depth
below the fuel. -/
def leafPaths (node : Vector NodeEntry 511) : Nat → NodeIdx → List Bool → Option (List (Byte × List Bool))
  | 0, _, _ => none
  | k + 1, i, path =>
    match node[i.toNat]? with
    | none => none
    | some e =>
      if e.leaf then some [(e.sym, path)]
      else
        match leafPaths node k e.left (path ++ [false]) with
        | none => none
        | some ls =>
          match leafPaths node k e.right (path ++ [true]) with
          | none => none
          | some rs => some (ls ++ rs)

/-- `sum_{k=1..L} p_k * 2^(L-k)` (R118). -/
def pathValue (p : List Bool) : Nat := p.foldl (fun a b => 2 * a + b.toNat) 0

/-- The code entry of a path: `{len L, bits ..}` (R118). -/
def pathCode (p : List Bool) : CodeEntry :=
  { len := BitVec.ofNat 8 p.length, bits := BitVec.ofNat 255 (pathValue p) }

/-- The (symbol, path) pairs of the tree under ROOT; a root that is a leaf has the code "0" (R118). -/
def codePaths (s : State) (rootNode : NodeEntry) : Option (List (Byte × List Bool)) :=
  if rootNode.leaf then some [(rootNode.sym, [false])] else leafPaths s.node 511 s.root []

/-- The code table with every entry cleared and then one written for each pair (R118). -/
def codeTable (ps : List (Byte × List Bool)) : Vector CodeEntry 256 :=
  ps.foldl (fun t p => t.set p.1.toNat (pathCode p.2) p.1.isLt) (Vector.replicate 256 CodeEntry.zero)

/-- "the largest CODE[s].len" (R118). -/
def longestCode (t : Vector CodeEntry 256) : Nat := t.toList.foldl (fun m e => max m e.len.toNat) 0

/-- "the number of s with CODE[s].len > 0" (R118). -/
def codeCount (t : Vector CodeEntry 256) : Nat := t.toList.countP (fun e => e.len != 0)

/-- CODE_GEN (R118). -/
def execCodeGen (s : State) : Host.Outcome State Fault Refusal :=
  if s.treeValid = false then .next (raiseError .noTree 0 s)
  else match nodeAt s s.root with
    | none => .fault .noNode
    | some r =>
      match codePaths s r with
      | none => .fault .noPath
      | some ps =>
        let t := codeTable ps
        .next (complete { s with
          code := t
          codesValid := true
          mode := .idle
          result0 := BitVec.ofNat 32 (longestCode t)
          result1 := BitVec.ofNat 32 (codeCount t) })

/-! ### Read-back (R120, R121) -/

/-- NODE_READ (R120). -/
def execNodeRead (i : NodeIdx) (s : State) : Host.Outcome State Fault Refusal :=
  if s.treeValid = false then .next (raiseError .noTree 0 s)
  else if s.nodeCount.toNat ≤ i.toNat then .next (raiseError .badIndex (zext i) s)
  else match nodeAt s i with
    | none => .fault .noNode
    | some e =>
      .next (complete { s with
        result0 := (zext (BitVec.ofBool e.leaf) <<< 31) ||| zext e.sym
        result1 := (zext e.right <<< 16) ||| zext e.left
        result2 := e.w.extractLsb' 0 32
        result3 := zext (e.w.extractLsb' 32 8) })

/-- CODE_READ (R121): word `W` of the code zero-extended to 256 bits. -/
def execCodeRead (sym : Byte) (w : BitVec 3) (s : State) : Host.Outcome State Fault Refusal :=
  if s.codesValid = false then .next (raiseError .noCodes 0 s)
  else
    .next (complete { s with
      result0 := zext (codeAt s sym).len
      result1 := ((codeAt s sym).bits.setWidth 256).extractLsb' (32 * w.toNat) 32 })

end Sys2Proof.Machine
end

