-- ==== Sys2Proof/Machine/UnpackDecode.lean ====
section
/-! DEFINITION. Unpacking and tree-walk decoding: DEC_INIT, DEC_DATA, DEC_FINISH
(spec/44_decode_unpack.md R128 to R130). -/

namespace Sys2Proof.Machine

/-- DEC_INIT (R128); the checks stand in the rule's order. -/
def execDecInit (padf : Byte) (s : State) : Host.Outcome State Fault Refusal :=
  if s.treeValid = false then .next (raiseError .noTree 0 s)
  else if 7 < padf.toNat then .next (raiseError .badPad (zext padf) s)
  else if s.carg = 0 then .next (raiseError .badLen 0 s)
  else .next (complete { s with
    mode := .dec, decRem := s.carg, pad := padf.extractLsb' 0 3, decWalk := s.root, decSh := 0, decShN := 0
    symcnt := 0 })

/-- One payload bit is consumed, most significant first (R129). -/
def consumeBit (s : State) : State := { s with decSh := s.decSh <<< 1, decShN := s.decShN - 1 }

/-- R129: the bits of the next payload byte to consume; the last byte's padding is trimmed. -/
def payloadBits (rem : Word) (pad : BitVec 3) : Fin 9 :=
  if rem = 0 then ⟨8 - pad.toNat, by omega⟩ else 8

/-- DEC_DATA's RUN step (R129): exactly one branch, tried in this order. -/
def decDataRun (s : State) : Host.Outcome State Fault Refusal :=
  if s.decShN ≠ 0 then
    match walkMove s with
    | .noNode => .fault .noNode
    | .badBit => .next (raiseError .decBadbit s.symcnt s)
    | .emit sym =>
      if outFull s then .next s
      else .next (pushOut sym (consumeBit { s with symcnt := s.symcnt + 1, decWalk := s.root }))
    | .move nxt => .next (consumeBit { s with decWalk := nxt })
  else if s.cnt ≠ 0 then
    match s.inq with
    | [] => .next s
    | b :: rest =>
      .next { s with
        inq := rest, cnt := s.cnt - 1, decRem := s.decRem - 1, decSh := b
        decShN := payloadBits (s.decRem - 1) s.pad }
  else .next (complete s)

/-- DEC_DATA (R129). -/
def execDecData (s : State) : Host.Outcome State Fault Refusal :=
  match s.ph with
  | .start =>
    if s.mode ≠ .dec then .next (raiseError .badMode (zext (modeBits s.mode)) s)
    else if s.decRem.ult s.carg then .next (raiseError .decOverrun s.carg s)
    else .next (startStream s.carg s)
  | .run => decDataRun s

/-- DEC_FINISH (R130); the checks stand in the rule's order. -/
def execDecFinish (s : State) : Host.Outcome State Fault Refusal :=
  if s.mode ≠ .dec then .next (raiseError .badMode (zext (modeBits s.mode)) s)
  else if s.decRem ≠ 0 then .next (raiseError .decTrunc s.decRem s)
  else if s.decShN ≠ 0 ∨ s.decWalk ≠ s.root then .next (raiseError .decPartial (zext s.decWalk) s)
  else .next (complete { s with mode := .idle, result0 := s.symcnt })

end Sys2Proof.Machine
end

