-- ==== Sys2Proof/Machine/Dispatch.lean ====
section
/-! DEFINITION. One arm per command. `exec i s` is the engine step of command `i` in `s`: its start part when
`PH = START`, one micro-step when a streaming command is in its RUN phase (spec/40_engine_control.md R91, R92);
for RESET it is the effect of the CMD write (R100). -/

namespace Sys2Proof.Machine

def exec (i : Instr) (s : State) : Host.Outcome State Fault Refusal :=
  match i with
  | .nop => Sys2Proof.Machine.execNop s
  | .reset => Sys2Proof.Machine.execReset s
  | .fifoClr clrIn clrOut => Sys2Proof.Machine.execFifoClr clrIn clrOut s
  | .ftClear => Sys2Proof.Machine.execFtClear s
  | .ftCount => Sys2Proof.Machine.execFtCount s
  | .ftLoad sym => Sys2Proof.Machine.execFtLoad sym s
  | .ftGet k => Sys2Proof.Machine.execFtGet k s
  | .ftRead sym => Sys2Proof.Machine.execFtRead sym s
  | .treeBuild => Sys2Proof.Machine.execTreeBuild s
  | .codeGen => Sys2Proof.Machine.execCodeGen s
  | .nodeRead k => Sys2Proof.Machine.execNodeRead k s
  | .codeRead sym w => Sys2Proof.Machine.execCodeRead sym w s
  | .encInit => Sys2Proof.Machine.execEncInit s
  | .encData => Sys2Proof.Machine.execEncData s
  | .encFlush => Sys2Proof.Machine.execEncFlush s
  | .decInit padf => Sys2Proof.Machine.execDecInit padf s
  | .decData => Sys2Proof.Machine.execDecData s
  | .decFinish => Sys2Proof.Machine.execDecFinish s

end Sys2Proof.Machine
end

