-- ==== Sys2Proof/Machine/Engine.lean ====
section
/-! DEFINITION. The two agents (spec/00_scope.md R11 to R13): the engine step (spec/40_engine_control.md R90 to
R92), the host's accesses, the reset input (spec/70_reset_and_hazards.md R163), and which of them moves next. -/

namespace Sys2Proof.Machine

/-- The START step (R91): a word that spells no command, or RESET, raises BAD_CMD with the word. -/
def startStep (s : State) : Host.Outcome State Fault Refusal :=
  match decode s.cur with
  | .error _ => .next (raiseError .badCmd s.cur s)
  | .ok .reset => .next (raiseError .badCmd s.cur s)
  | .ok i => exec i s

/-- The RUN step (R92): one micro-step of the streaming command in CUR. -/
def runStep (s : State) : Host.Outcome State Fault Refusal :=
  match decode s.cur with
  | .error _ => .fault .noRunStep
  | .ok i => if streaming i then exec i s else .fault .noRunStep

/-- The engine step (R90). With BUSY = 0 the engine does nothing; in a stall the meaning itself changes
nothing (R95). -/
def engineStep (s : State) : Host.Outcome State Fault Refusal :=
  if s.busy then
    match s.ph with
    | .start => startStep s
    | .run => runStep s
  else .next s

/-- One event (R11, R12). A read's value goes to the host. -/
def applyEvent (e : Event) (s : State) : Host.Outcome State Fault Refusal :=
  match e with
  | .busRead off => .next { busReadState off s with reads := s.reads ++ [busReadValue off s] }
  | .busWrite off v => .next (busWrite off v s)
  | .hwReset => .next (resetState s)
  | .engine => engineStep s

/-- The next event: the first of those to come, or the engine when the list is empty (R12, R13). -/
def nextEvent (s : State) : Host.Outcome State Fault Refusal :=
  match s.events with
  | [] => applyEvent .engine s
  | e :: rest => applyEvent e { s with events := rest }

/-- A command word placed so that the very next step runs it: RESET as the next CMD write (R100), any
other word accepted as R88 does, with the engine to move next. -/
def placeCommand (v : Word) (s : State) : State :=
  if v = resetWord then { s with events := .busWrite (regOffset .cmd) v :: s.events }
  else { acceptCommand v s with events := .engine :: s.events }

end Sys2Proof.Machine
end

