-- ==== Sys2Proof/Machine/Step.lean ====
section
/-! DEFINITION. The step: one event of a run (spec/00_scope.md R12). -/

namespace Sys2Proof.Machine

/-- One event. -/
def step (s : State) : Host.Outcome State Fault Refusal := Sys2Proof.Machine.nextEvent s

/-- `s` with the command word `w` placed so that the next step runs it (log 5). Every command is one
32-bit word (R77); the bits above `nbits` are 0. -/
def State.withFetchWord (s : State) (nbits w : Nat) : State :=
  Sys2Proof.Machine.placeCommand (BitVec.ofNat 32 (w % 2 ^ nbits)) s

end Sys2Proof.Machine
end

