-- ==== Sys2Proof/Machine/Container.lean ====
section
/-! DEFINITION. The container format (spec/45_container.md R134 to R138, R143, R145): host firmware data, plain
byte lists. Its integers are four bytes, unsigned, little-endian (spec/20_memory.md R67). -/

namespace Sys2Proof.Machine

/-- R137: the conditions a firmware call reports. `ioUnavailable` belongs to the I/O layer, which is
outside the spec (R7, R147): no function of this model reports it. -/
inductive Condition where
  | emptyInput | corruptContainer | ioUnavailable | inputTooLarge | hpuFault
  deriving DecidableEq, Repr

/-- R138: the condition for the ERRCODE of a command that ended in error. -/
def conditionOf : ErrCode → Condition
  | .emptyInput => .emptyInput
  | .dupSymbol | .badPad | .badLen | .decTrunc | .decPartial | .decBadbit => .corruptContainer
  | .countOvf => .inputTooLarge
  | .badCmd | .noTree | .noCodes | .noCode | .badIndex | .badMode | .decOverrun => .hpuFault

/-- R148: every error. -/
def allErrCodes : List ErrCode :=
  [.badCmd, .emptyInput, .noTree, .noCodes, .noCode, .countOvf, .dupSymbol, .badIndex, .badPad, .badLen,
   .decOverrun, .decTrunc, .decPartial, .badMode, .decBadbit]

/-- R138 on the value ERRCODE reads. A code outside R148 is never produced; it would be a fault of the
HPU (log 11). -/
def conditionOfWord (v : Word) : Condition :=
  match allErrCodes.find? fun c => zext (errCodeBits c) == v with
  | some c => conditionOf c
  | none => .hpuFault

/-! ### Host memory (R19) -/

/-- `MemWrite` of `n` bytes: the little-endian bytes of `v` (R67). -/
def leBytes : Nat → Nat → List Byte
  | 0, _ => []
  | n + 1, v => BitVec.ofNat 8 v :: leBytes n (v / 256)

/-- The unsigned little-endian integer of a byte list (R67). -/
def leValue : List Byte → Nat
  | [] => 0
  | b :: bs => b.toNat + 256 * leValue bs

/-- `MemRead(buf, a, n)` (R19). -/
def memRead (buf : List Byte) (a n : Nat) : Nat := leValue ((buf.drop a).take n)

/-! ### Layout (R134, R135) -/

/-- `serialize` (R143): padding, table size, the entries in the order given, the payload. -/
def serialize (pad n : Nat) (entries : List (Byte × Word)) (payload : List Byte) : List Byte :=
  leBytes 4 pad ++ leBytes 4 n ++ entries.flatMap (fun e => e.1 :: leBytes 4 e.2.toNat) ++ payload

/-- What `deserialize` finds (R145). -/
structure Layout where
  pad : Nat
  n   : Nat
  p   : Nat
  deriving DecidableEq, Repr

/-- `deserialize` (R145): the checks in the rule's order; the first that fails is reported. -/
def deserialize (c : List Byte) : Except Condition Layout :=
  if c.length < 8 then .error .corruptContainer
  else
    let pad := memRead c 0 4
    let n := memRead c 4 4
    if 7 < pad then .error .corruptContainer
    else if n < 1 ∨ 256 < n then .error .corruptContainer
    else if c.length < 8 + 5 * n then .error .corruptContainer
    else
      let p := c.length - 8 - 5 * n
      if p = 0 then .error .corruptContainer
      else if 2 ^ 32 - 1 < p then .error .inputTooLarge
      else .ok { pad := pad, n := n, p := p }

/-- Entry `k` of a container (R135): its byte at `8 + 5k`, its count at `9 + 5k`. -/
def entryAt (c : List Byte) (k : Nat) : Byte × Word :=
  (BitVec.ofNat 8 (memRead c (8 + 5 * k) 1), BitVec.ofNat 32 (memRead c (9 + 5 * k) 4))

/-- The payload of a container of table size `n` (R135). -/
def payloadOf (c : List Byte) (n : Nat) : List Byte := c.drop (8 + 5 * n)

end Sys2Proof.Machine
end

