-- ==== Sys2Proof/Machine/Firmware.lean ====
section
/-! DEFINITION. The host (spec/00_scope.md R11): host scripts (spec/30_encoding.md R86, R87; their end,
spec/40_engine_control.md R103) and the firmware sequences `Stream`, `compress`, `decompress` (spec/45_container.md R139
to R142, R144 to R146). The host drives the HPU by its accesses alone. What the other two agents do between two
accesses is open (R12): it is an argument here, a list of engine steps and hardware resets for each access, so
that every interleaving with this one host is some list of lists. -/

namespace Sys2Proof.Machine

/-- What can happen between two accesses of the host: an engine step or a hardware reset (R11, R12). -/
inductive Move where
  | engine
  | hwReset
  deriving DecidableEq, Repr

/-- The event of a move. -/
def Move.event : Move → Event
  | .engine => .engine
  | .hwReset => .hwReset

/-- The host's side of a run: the HPU it drives, and what happens before each of its next accesses. When
the list is used up, one engine step happens before each access (R13; DESIGN CHOICE, log 13). -/
structure Driver where
  hpu   : State
  sched : List (List Move)
  deriving DecidableEq, Repr

/-- Why a firmware call ends without an output (R140). -/
inductive FwStop where
  /-- A condition is reported (R137). -/
  | report (c : Condition)
  /-- The HPU stopped with a fault of the model. -/
  | stopped (f : Fault)
  /-- The HPU gave the model's "not modelled yet". -/
  | unmodelled
  /-- The host is still polling when the bound on its polls is used up: the command has not ended. -/
  | stillWaiting
  deriving DecidableEq, Repr

/-- A host computation: it drives the HPU and ends with a value or without an output. Either way the HPU
stays as the run left it: "The HPU itself does not undo the effects of earlier micro-steps" (R140). -/
abbrev Fw := ExceptT FwStop (StateM Driver)

/-- A host computation run: how it ends, and the driver after it. -/
def runFw {α : Type} (m : Fw α) (d : Driver) : Except FwStop α × Driver := Id.run (StateT.run (ExceptT.run m) d)

/-- The moves before an access, in their order. A fault stops the run in the state it was met in. -/
def applyMoves : List Move → State → Except FwStop Unit × State
  | [], s => (.ok (), s)
  | m :: ms, s =>
    match applyEvent m.event s with
    | .next s' => applyMoves ms s'
    | .fault f => (.error (.stopped f), s)
    | .refused _ => (.error .unmodelled, s)

/-- What happens before the next access (R12): the next list of moves, one engine step when there is
none (log 13). -/
def betweenAccesses : Fw Unit :=
  ExceptT.mk fun d =>
    let r := applyMoves (d.sched.headD [.engine]) d.hpu
    pure (r.1, { hpu := r.2, sched := d.sched.tail })

/-- `WR reg, v` (R86). -/
def wr (r : Reg) (v : Word) : Fw Unit := do
  betweenAccesses
  modify fun d => { d with hpu := busWrite (regOffset r) v d.hpu }

/-- `RD reg -> x` (R86). -/
def rd (r : Reg) : Fw Word := do
  betweenAccesses
  modifyGet fun d =>
    let v := busReadValue (regOffset r) d.hpu
    (v, { d with hpu := { busReadState (regOffset r) d.hpu with reads := d.hpu.reads ++ [v] } })

/-- `WAIT` (R87): repeat `RD STATUS` until bit 0 reads 0; the last value read. `fuel` bounds the
polls. -/
def waitIdle : Nat → Fw Word
  | 0 => throw .stillWaiting
  | fuel + 1 => do
    let v ← rd .status
    if v.getLsbD 0 then waitIdle fuel else pure v

/-- A command without an argument: `WR CMD, word` (R87). -/
def issue (i : Instr) : Fw Unit := wr .cmd (encode i)

/-- A command with an argument: `WR ARG, n`, then `WR CMD, word` (R87, R168). -/
def issueArg (i : Instr) (n : Word) : Fw Unit := do
  wr .arg n
  wr .cmd (encode i)

/-! ### Host scripts (R86, R87) -/

/-- `POP n`: `n` times `RD DATA_OUT`. -/
def popBytes : Nat → Fw Unit
  | 0 => pure ()
  | n + 1 => do
    let _ ← rd .dataOut
    popBytes n

/-- `PUSH b0, b1, ...`: one `WR DATA_IN` per byte. -/
def pushBytes : List Nat → Fw Unit
  | [] => pure ()
  | b :: bs => do
    wr .dataIn (BitVec.ofNat 32 b)
    pushBytes bs

/-- What a well-formed script line does (R86, R87). What an `RD` returned stands in the HPU's `reads`. -/
def runLine (fuel : Nat) : ScriptLine → Fw Unit
  | .wr r v => wr r (BitVec.ofNat 32 v)
  | .rd r => do
    let _ ← rd r
    pure ()
  | .nop => issue .nop
  | .reset => issue .reset
  | .fifoClr i o => issue (.fifoClr (i == 1) (o == 1))
  | .ftClear => issue .ftClear
  | .ftCount n => issueArg .ftCount (BitVec.ofNat 32 n)
  | .ftLoad s c => issueArg (.ftLoad (BitVec.ofNat 8 s)) (BitVec.ofNat 32 c)
  | .ftGet k => issue (.ftGet (BitVec.ofNat 9 k))
  | .ftRead s => issue (.ftRead (BitVec.ofNat 8 s))
  | .treeBuild => issue .treeBuild
  | .codeGen => issue .codeGen
  | .nodeRead i => issue (.nodeRead (BitVec.ofNat 9 i))
  | .codeRead s w => issue (.codeRead (BitVec.ofNat 8 s) (BitVec.ofNat 3 w))
  | .encInit => issue .encInit
  | .encData n => issueArg .encData (BitVec.ofNat 32 n)
  | .encFlush => issue .encFlush
  | .decInit pad p => issueArg (.decInit (BitVec.ofNat 8 pad)) (BitVec.ofNat 32 p)
  | .decData n => issueArg .decData (BitVec.ofNat 32 n)
  | .decFinish => issue .decFinish
  | .push bs => pushBytes bs
  | .pop n => popBytes n
  | .wait => do
    let _ ← waitIdle fuel
    pure ()
  | .clrErr => wr .status 0x00000004

/-- The lines of a script, in order. -/
def runLines (fuel : Nat) : List ScriptLine → Fw Unit
  | [] => pure ()
  | l :: ls => do
    runLine fuel l
    runLines fuel ls

/-- How a script ends. -/
inductive ScriptEnd where
  /-- It is ill-formed: it is refused and nothing of it is run (R87). -/
  | illFormed
  /-- The state after its last access is quiescent: that state is the end of the run (R103). -/
  | finished (d : Driver)
  /-- It ends with BUSY = 1: it "has not finished" (R103). -/
  | unfinished (d : Driver)
  /-- A `WAIT` used up its bound, or the HPU stopped with a fault of the model. -/
  | stopped (why : FwStop) (d : Driver)
  deriving DecidableEq, Repr

/-- A script (R87), to its end as R103 defines it. -/
def runScript (fuel : Nat) (ls : List ScriptLine) (d : Driver) : ScriptEnd :=
  if Script.wellFormed ls then
    match runFw (runLines fuel ls) d with
    | (.ok _, d') => if quiescent d'.hpu then .finished d' else .unfinished d'
    | (.error e, d') => .stopped e d'
  else .illFormed

/-! ### The streaming protocol (R141) -/

/-- "When BUSY = 0 it reads DATA_OUT until OUT is empty", appending bits [7:0] when bit 8 is 1. -/
def drain : Nat → List Byte → Fw (List Byte)
  | 0, _ => throw .stillWaiting
  | fuel + 1, dst => do
    let v ← rd .dataOut
    if v.getLsbD 8 then drain fuel (dst ++ [v.extractLsb' 0 8]) else pure dst

/-- The loop of `Stream` with the STATUS value read last. It goes on while the command is busy or
bytes remain to send; a command that is no longer running and has not ended with DONE = 1 (it raised, or a reset
abandoned it) consumes no more bytes, so the loop ends there (log 10). -/
def streamLoop : Nat → Word → List Byte → List Byte → Fw (List Byte)
  | 0, _, _, _ => throw .stillWaiting
  | fuel + 1, status, src, dst =>
    if !status.getLsbD 0 && (src.isEmpty || !status.getLsbD 1) then drain fuel dst
    else do
      let src' ← match src with
        | [] => pure []
        | b :: bs =>
          if status.getLsbD 3 then pure src
          else do
            wr .dataIn (zext b)
            pure bs
      let dst' ←
        if status.getLsbD 6 then pure dst
        else do
          let v ← rd .dataOut
          pure (if v.getLsbD 8 then dst ++ [v.extractLsb' 0 8] else dst)
      let status' ← rd .status
      streamLoop fuel status' src' dst'

/-- `Stream(src, dst)` (R141): what is appended to `dst`. The rule reads STATUS at the end of a round and does
not say which value the first round tests: the model's choice is one `RD STATUS` before the loop (DESIGN CHOICE,
log 10), since the last value read before the CMD write is that of the preceding `WAIT`. -/
def stream (fuel : Nat) (src : List Byte) : Fw (List Byte) := do
  let status ← rd .status
  streamLoop fuel status src []

/-- "After each WAIT, STATUS.ERR = 1 ends the call with the condition of rule R138" (R142, R146), and the
call goes on only when the command ended with DONE = 1 (R140). Two points the spec leaves open are the model's
choice (log 17): with ERR = 1 the ERRCODE alone gives the condition, whether or not IN_OVF or REJ is 1 too
(R138 names both conditions and no order); and a command that is over with neither ERR nor DONE, as after a hardware
reset, reports `HpuFault`. -/
def waitOk (fuel : Nat) : Fw Unit := do
  let v ← waitIdle fuel
  if v.getLsbD 2 then do
    let c ← rd .errcode
    throw (.report (conditionOfWord c))
  else if v.getLsbD 1 then pure ()
  else throw (.report .hpuFault)

/-- The STATUS read at the end of a sequence: IN_OVF or REJ seen there is an `HpuFault` (R138), and so is
DONE = 0, which shows that a hardware reset has fallen since the last `WAIT` (R140; the condition is the model's
choice, log 17), so that what was read meanwhile may be reset values. -/
def endOfSequence : Fw Unit := do
  let v ← rd .status
  if v.getLsbD 9 || v.getLsbD 10 || !v.getLsbD 1 then throw (.report .hpuFault) else pure ()

/-! ### Compress and decompress -/

/-- "for k in 0 .. n-1: FT_GET k ; WAIT ; RD RESULT0 -> s_k ; RD RESULT1 -> c_k" (R142), `m` entries
from entry `k` on. -/
def readEntries (fuel : Nat) : Nat → Nat → Fw (List (Byte × Word))
  | 0, _ => pure []
  | m + 1, k => do
    issue (.ftGet (BitVec.ofNat 9 k))
    waitOk fuel
    let s ← rd .result0
    let c ← rd .result1
    let rest ← readEntries fuel m (k + 1)
    pure ((s.extractLsb' 0 8, c) :: rest)

/-- `compress(input)` (R142); `fuel` bounds each polling loop. The container is returned only when
every command ended with DONE (R140). A hardware reset that could change the container is seen, so that it is a
function of the input (R144): before a command, that command or a later one raises; inside one or after the last,
a STATUS read shows DONE = 0. -/
def compress (fuel : Nat) (input : List Byte) : Fw (List Byte) := do
  if input.length = 0 then throw (.report .emptyInput)
  if 2 ^ 32 - 1 < input.length then throw (.report .inputTooLarge)
  let len : Word := BitVec.ofNat 32 input.length
  issue (.fifoClr true true)
  waitOk fuel
  issue .ftClear
  waitOk fuel
  issueArg .ftCount len
  let _ ← stream fuel input
  waitOk fuel
  issue .treeBuild
  waitOk fuel
  issue .codeGen
  waitOk fuel
  issue .encInit
  waitOk fuel
  issueArg .encData len
  let out1 ← stream fuel input
  waitOk fuel
  issue .encFlush
  let out2 ← stream fuel []
  waitOk fuel
  let payload := out1 ++ out2
  if 2 ^ 32 - 1 < payload.length then throw (.report .inputTooLarge)
  let pad ← rd .pad
  let n ← rd .tblSize
  let entries ← readEntries fuel n.toNat 0
  endOfSequence
  pure (serialize pad.toNat n.toNat entries payload)

/-- "for k in 0 .. n-1: FT_LOAD c[8 + 5k], MemRead(c, 9 + 5k, 4) ; WAIT" (R146), `m` entries from entry
`k` on. -/
def loadEntries (fuel : Nat) (c : List Byte) : Nat → Nat → Fw Unit
  | 0, _ => pure ()
  | m + 1, k => do
    issueArg (.ftLoad (entryAt c k).1) (entryAt c k).2
    waitOk fuel
    loadEntries fuel c m (k + 1)

/-- `decompress(c)` (R146). -/
def decompress (fuel : Nat) (c : List Byte) : Fw (List Byte) := do
  match deserialize c with
  | .error e => throw (.report e)
  | .ok l =>
    issue (.fifoClr true true)
    waitOk fuel
    issue .ftClear
    waitOk fuel
    loadEntries fuel c l.n 0
    issue .treeBuild
    waitOk fuel
    issueArg (.decInit (BitVec.ofNat 8 l.pad)) (BitVec.ofNat 32 l.p)
    waitOk fuel
    issueArg .decData (BitVec.ofNat 32 l.p)
    let out ← stream fuel (payloadOf c l.n)
    waitOk fuel
    issue .decFinish
    waitOk fuel
    endOfSequence
    pure out

end Sys2Proof.Machine
end

