-- ==== Sys2Proof/Safety.lean ====
section
/-! DEFINITION. What the claims are stated in: the invariant of every reachable state (spec/10_state.md R55 and
what the command rules imply), and the spec's own notions that its laws speak of, written independently of the
meanings: bit strings (spec/00_scope.md R21), the priority structure of the tree builder (spec/42_tree_code.md
R113, R117), the walk of a bit string from the root (R118, spec/44_decode_unpack.md R129). -/

namespace Sys2Proof.Machine

/-! ### The invariant -/

/-- What holds of the command in its RUN phase: it is a streaming one (R91), the stream it needs is
open (R123, R124, R129), DEC_DATA has no more bytes to consume than the payload has left (R129), and while
FT_COUNT counts no tree is valid (R105). -/
abbrev RunPhaseOk (s : State) : Prop :=
  match decode s.cur with
  | .ok .ftCount => s.treeValid = false
  | .ok .encData => s.mode = .enc
  | .ok .encFlush => s.mode = .enc
  | .ok .decData => s.mode = .dec ∧ s.cnt.toNat ≤ s.decRem.toNat
  | _ => False

/-- The control part of the invariant: R55 points 1, 2, 3, 5 and 7, the FIFO capacities (R18), the
error record (R33, R34, R148), DONE (R88, R94), the RUN phase, and the packer's bit count (R126). -/
structure ControlInv (s : State) : Prop where
  cfgValid : s.cfg.Valid
  inBound : s.inq.length ≤ s.cfg.inDepth.toNat
  outBound : s.outq.length ≤ s.cfg.outDepth.toNat
  errIdle : s.err = true → s.busy = false
  doneIdle : s.done = true → s.busy = false ∧ s.err = false
  noErrRecord : s.err = false → s.errCode = 0 ∧ s.errInfo = 0
  errCodeNamed : s.err = true → 1 ≤ s.errCode.toNat ∧ s.errCode.toNat ≤ 15
  codesNeedTree : s.codesValid = true → s.treeValid = true
  encNeedsCodes : s.mode = .enc → s.codesValid = true
  decNeedsTree : s.mode = .dec → s.treeValid = true
  groupInEncData : s.encAccN = 8 ∨ s.encSrN ≠ 0 → s.busy = true ∧ s.ph = .run ∧ decode s.cur = .ok .encData
  runBusy : s.ph = .run → s.busy = true
  runPhase : s.ph = .run → RunPhaseOk s
  groupCount : s.mode = .enc → s.bitcnt.toNat % 8 = s.encAccN.val % 8

/-- The leaf part of the arena: entry `k < n_sym` is the leaf of the `k`-th present symbol (R112, R114). -/
abbrev LeafOk (s : State) (k : Fin 511) : Prop :=
  (s.node[k]).leaf = true ∧ (s.node[k]).left = 0 ∧ (s.node[k]).right = 0 ∧
  ∃ e ∈ (presentEntries s.ft)[k.val]?, (s.node[k]).sym = e.1 ∧ (s.node[k]).w = e.2.setWidth 40

/-- The internal part: entry `k` has two children, both with smaller indices, and the sum of their
weights (R114, R116). -/
abbrev InternalOk (s : State) (k : Fin 511) : Prop :=
  (s.node[k]).leaf = false ∧ (s.node[k]).sym = 0 ∧
  (s.node[k]).left.toNat < k.val ∧ (s.node[k]).right.toNat < k.val ∧ (s.node[k]).left ≠ (s.node[k]).right ∧
  ∃ a ∈ nodeAt s (s.node[k]).left, ∃ b ∈ nodeAt s (s.node[k]).right, (s.node[k]).w = a.w + b.w

/-- Node `j` is a child of the internal node `k`. -/
abbrev ChildOf (s : State) (j k : Fin 511) : Prop :=
  (s.node[k]).leaf = false ∧ ((s.node[k]).left.toNat = j.val ∨ (s.node[k]).right.toNat = j.val)

/-- R116: the shape of a valid tree. -/
structure TreeShape (s : State) : Prop where
  nonempty : 1 ≤ nSym s
  count : s.nodeCount.toNat = 2 * nSym s - 1
  rootLast : s.root.toNat + 1 = s.nodeCount.toNat
  leaves : ∀ k : Fin 511, k.val < nSym s → LeafOk s k
  internals : ∀ k : Fin 511, nSym s ≤ k.val → k.val < s.nodeCount.toNat → InternalOk s k
  parents : ∀ j : Fin 511, j.val < s.root.toNat → ∃ k : Fin 511, k.val < s.nodeCount.toNat ∧ ChildOf s j k

/-- The table part of the invariant: an absent symbol's count is 0 (R109), a valid tree has its shape
(R55 point 4, R116), the walk is at ROOT or at an internal node of it (R129), and a code's bits above its
length are 0 (R48). -/
structure TableInv (s : State) : Prop where
  absentZero : ∀ b : Byte, (ftAt s b).present = false → (ftAt s b).count = 0
  tree : s.treeValid = true → TreeShape s
  walk : s.mode = .dec → s.decWalk = s.root ∨
    (s.decWalk.toNat < s.nodeCount.toNat ∧ ∃ e ∈ nodeAt s s.decWalk, e.leaf = false)
  codeWidth : s.codesValid = true → ∀ b : Byte, (codeAt s b).bits.toNat < 2 ^ (codeAt s b).len.toNat

/-- The invariant of every reachable state. -/
structure Inv (s : State) : Prop where
  control : ControlInv s
  table : TableInv s

/-! ### Bit strings (R21, R64) -/

/-- The low `n` bits of a number as a bit string, most significant first (R21). -/
def bitString : Nat → Nat → List Bool
  | 0, _ => []
  | n + 1, v => v.testBit n :: bitString n v

/-- The code of a symbol as a bit string: empty when it has none (R48). -/
def codeString (s : State) (b : Byte) : List Bool := bitString (codeAt s b).len.toNat (codeAt s b).bits.toNat

/-- The bits of a byte string, most significant first within each byte (R64). -/
def byteBits (bs : List Byte) : List Bool := bs.flatMap fun b => bitString 8 b.toNat

/-- The bits the packer holds: the bytes in OUT, then the partial group, then the code bits not yet
shifted (R50). -/
def packerBits (s : State) : List Bool :=
  byteBits s.outq ++ bitString s.encAccN.val s.encAcc.toNat ++ bitString s.encSrN.toNat s.encSr.toNat

/-! ### The tree builder's order (R113, R117) -/

/-- `i` is not yet taken when node `k` is created: it exists and is a child of no node created before. -/
abbrev Untaken (s : State) (k i : Fin 511) : Prop :=
  i.val < k.val ∧ ∀ m : Fin 511, m.val < k.val → ¬ ChildOf s i m

/-- R113: the key of node `i` is smaller than that of node `j`. -/
abbrev KeyBelow (s : State) (i j : Fin 511) : Prop :=
  (s.node[i]).w.toNat < (s.node[j]).w.toNat ∨ (s.node[i]).w.toNat = (s.node[j]).w.toNat ∧ i.val < j.val

/-- R117: node `k` merges the two nodes of least key among those not yet taken, the least on the left. -/
abbrev MergesLeast (s : State) (k : Fin 511) : Prop :=
  ∃ x y : Fin 511, (s.node[k]).left.toNat = x.val ∧ (s.node[k]).right.toNat = y.val ∧
    (s.node[k]).w.toNat = (s.node[x]).w.toNat + (s.node[y]).w.toNat ∧
    Untaken s k x ∧ Untaken s k y ∧ KeyBelow s x y ∧
    ∀ z : Fin 511, Untaken s k z → z ≠ x → z ≠ y → KeyBelow s y z

/-! ### Walking bits (R118, R129) -/

/-- The node a bit string leads to from node `i`: 0 to the left child, 1 to the right one; a leaf has
no child. -/
def follow (s : State) : NodeIdx → List Bool → Option NodeIdx
  | i, [] => some i
  | i, b :: bs =>
    match nodeAt s i with
    | none => none
    | some e => if e.leaf then none else follow s (if b then e.right else e.left) bs

/-- R118: `p` is the code path of symbol `b`: the steps from ROOT to the leaf of `b`, or "0" when that
leaf is ROOT itself. -/
def IsCodePath (s : State) (b : Byte) (p : List Bool) : Prop :=
  ∃ j e, nodeAt s j = some e ∧ e.leaf = true ∧ e.sym = b ∧
    ((j ≠ s.root ∧ follow s s.root p = some j) ∨ (j = s.root ∧ p = [false]))

/-- HFC §4.5's decoding as a function of the bits alone, with the single-leaf rule of R129: the symbols
emitted and the walk position left, or none for a bit no code has. -/
def decodeBits (s : State) : NodeIdx → List Bool → Option (List Byte × NodeIdx)
  | i, [] => some ([], i)
  | i, b :: bs =>
    match nodeAt s i with
    | none => none
    | some e =>
      if e.leaf && b then none
      else
        let nxt := if e.leaf then i else if b then e.right else e.left
        match nodeAt s nxt with
        | none => none
        | some f =>
          if f.leaf then (decodeBits s s.root bs).map fun r => (f.sym :: r.1, r.2)
          else decodeBits s nxt bs

/-- The payload bits DEC_DATA has still to consume (R131): those left of the current byte, then the
`cnt` next bytes of IN, each with 8 bits but the payload's last, which has `8 - PAD`. -/
def payloadString (pad : BitVec 3) : Nat → Nat → List Byte → List Bool
  | 0, _, _ => []
  | _ + 1, _, [] => []
  | n + 1, rem, b :: bs =>
    (if rem = 1 then (bitString 8 b.toNat).take (8 - pad.toNat) else bitString 8 b.toNat)
      ++ payloadString pad n (rem - 1) bs

/-- The bits to consume in `s`. -/
def pendingBits (s : State) : List Bool :=
  (bitString 8 s.decSh.toNat).take s.decShN.val ++ payloadString s.pad s.cnt.toNat s.decRem.toNat s.inq

/-! ### Runs -/

/-- `k` engine steps with no other event between them. -/
def engineTimes : Nat → State → Host.Outcome State Fault Refusal
  | 0, s => .next s
  | k + 1, s =>
    match engineStep s with
    | .next s' => engineTimes k s'
    | .fault f => .fault f
    | .refused r => .refused r

/-- The number of present symbols below `b` (R108, R112). -/
def presentBelow (s : State) (b : Byte) : Nat :=
  (Finset.univ.filter fun c : Byte => (ftAt s c).present = true ∧ c.toNat < b.toNat).card

end Sys2Proof.Machine
end

