-- ==== Sys2Proof/Certificates/Slice0/Obligations.lean ====
section
/-! DEFINITION. The statements for the provers. Each formalises a rule of spec/ or a law that follows from
several; the docstring says which, and what is the model's own choice. A next state is written out whole, so
what a statement does not name is unchanged: that is its frame. -/

open Sys2Proof Sys2Proof.Machine

/-! ### Encoding (spec/30_encoding.md) -/

/-- Every operand of every command survives encoding and decoding (R78 to R80). -/
def Obligations.DecodeOfEncodeIsTheCommand : Prop :=
  ∀ i : Instr, decode (encode i) = .ok i

/-- A word has one meaning: the command it decodes to has no other word (R80). -/
def Obligations.DecodedWordIsItsEncoding : Prop :=
  ∀ (w : Word) (i : Instr), decode w = .ok i → encode i = w

/-- R80, row by row: a word spells a command exactly when `(v AND mask) = match`, with the operands of
R78 read from its low bits. -/
def Obligations.DecodeFollowsTheOpcodeMap : Prop :=
  ∀ w : Word,
    (decode w = .ok .nop ↔ w &&& 0xFFFFFFFF = 0x00000000) ∧
    (decode w = .ok .reset ↔ w &&& 0xFFFFFFFF = 0x01000000) ∧
    (∀ i o, decode w = .ok (.fifoClr i o) ↔
      w &&& 0xFFFFFFFC = 0x02000000 ∧ i = w.getLsbD 0 ∧ o = w.getLsbD 1) ∧
    (decode w = .ok .ftClear ↔ w &&& 0xFFFFFFFF = 0x10000000) ∧
    (decode w = .ok .ftCount ↔ w &&& 0xFFFFFFFF = 0x11000000) ∧
    (∀ x, decode w = .ok (.ftLoad x) ↔ w &&& 0xFFFFFF00 = 0x12000000 ∧ x = w.extractLsb' 0 8) ∧
    (∀ k, decode w = .ok (.ftGet k) ↔ w &&& 0xFFFFFE00 = 0x13000000 ∧ k = w.extractLsb' 0 9) ∧
    (∀ x, decode w = .ok (.ftRead x) ↔ w &&& 0xFFFFFF00 = 0x14000000 ∧ x = w.extractLsb' 0 8) ∧
    (decode w = .ok .treeBuild ↔ w &&& 0xFFFFFFFF = 0x20000000) ∧
    (decode w = .ok .codeGen ↔ w &&& 0xFFFFFFFF = 0x21000000) ∧
    (∀ k, decode w = .ok (.nodeRead k) ↔ w &&& 0xFFFFFE00 = 0x22000000 ∧ k = w.extractLsb' 0 9) ∧
    (∀ x k, decode w = .ok (.codeRead x k) ↔
      w &&& 0xFFFFF800 = 0x23000000 ∧ x = w.extractLsb' 0 8 ∧ k = w.extractLsb' 8 3) ∧
    (decode w = .ok .encInit ↔ w &&& 0xFFFFFFFF = 0x30000000) ∧
    (decode w = .ok .encData ↔ w &&& 0xFFFFFFFF = 0x31000000) ∧
    (decode w = .ok .encFlush ↔ w &&& 0xFFFFFFFF = 0x32000000) ∧
    (∀ p, decode w = .ok (.decInit p) ↔ w &&& 0xFFFFFF00 = 0x40000000 ∧ p = w.extractLsb' 0 8) ∧
    (decode w = .ok .decData ↔ w &&& 0xFFFFFFFF = 0x41000000) ∧
    (decode w = .ok .decFinish ↔ w &&& 0xFFFFFFFF = 0x42000000)

/-- R82: an accepted word that spells no command raises BAD_CMD with the word and changes nothing else.
Every word with one of the 238 unassigned opcodes is such a word, and every word with an assigned opcode
and a reserved bit of its format (R78) set. -/
def Obligations.IllegalWordRaisesBadCmd : Prop :=
  (∀ (s : State) (v : Word), s.busy = false → s.err = false → (∀ i, decode v ≠ .ok i) →
    engineStep (busWrite 0x10 v s) = .next { s with
      cur := v, carg := s.arg, ph := .start, busy := false, done := false
      err := true, errCode := 0x01, errInfo := v }) ∧
  (∀ v : Word, v.extractLsb' 24 8 ∉ ([0x00, 0x01, 0x02, 0x10, 0x11, 0x12, 0x13, 0x14, 0x20, 0x21, 0x22, 0x23,
      0x30, 0x31, 0x32, 0x40, 0x41, 0x42] : List (BitVec 8)) → ∀ i, decode v ≠ .ok i) ∧
  (∀ v : Word,
    (v.extractLsb' 24 8 ∈ ([0x00, 0x01, 0x10, 0x11, 0x20, 0x21, 0x30, 0x31, 0x32, 0x41, 0x42] : List (BitVec 8)) ∧
        v.extractLsb' 0 24 ≠ 0 ∨
      v.extractLsb' 24 8 = 0x02 ∧ v.extractLsb' 2 22 ≠ 0 ∨
      v.extractLsb' 24 8 ∈ ([0x12, 0x14, 0x40] : List (BitVec 8)) ∧ v.extractLsb' 8 16 ≠ 0 ∨
      v.extractLsb' 24 8 ∈ ([0x13, 0x22] : List (BitVec 8)) ∧ v.extractLsb' 9 15 ≠ 0 ∨
      v.extractLsb' 24 8 = 0x23 ∧ v.extractLsb' 11 13 ≠ 0) → ∀ i, decode v ≠ .ok i)

/-- R83: 0x01000000 is the only spelling of RESET and acts at the CMD write itself; any other word with
OP = 0x01 is accepted like a command and raises BAD_CMD. -/
def Obligations.ResetHasOneSpelling : Prop :=
  (∀ v : Word, decode v = .ok .reset ↔ v = 0x01000000) ∧
  (∀ s : State, exec .reset s = .next (busWrite 0x10 0x01000000 s)) ∧
  (∀ (s : State) (v : Word), v.extractLsb' 24 8 = 0x01 → v ≠ 0x01000000 → s.busy = false → s.err = false →
    engineStep (busWrite 0x10 v s) = .next { s with
      cur := v, carg := s.arg, ph := .start, busy := false, done := false
      err := true, errCode := 0x01, errInfo := v })

/-- Words written out bit by bit from R78 and R80, one or more of each format. -/
def Obligations.ExampleWordsDecode : Prop :=
  decode (0x00#8 ++ 0x000000#24) = .ok .nop ∧
  decode (0x02#8 ++ 0#22 ++ 1#1 ++ 0#1) = .ok (.fifoClr false true) ∧
  decode (0x12#8 ++ 0#16 ++ 0x61#8) = .ok (.ftLoad 0x61) ∧
  decode (0x13#8 ++ 0#15 ++ 0x102#9) = .ok (.ftGet 0x102) ∧
  decode (0x22#8 ++ 0#15 ++ 0x1FE#9) = .ok (.nodeRead 0x1FE) ∧
  decode (0x23#8 ++ 0#13 ++ 5#3 ++ 0x62#8) = .ok (.codeRead 0x62 5) ∧
  decode (0x40#8 ++ 0#16 ++ 0x07#8) = .ok (.decInit 7) ∧
  decode (0x41#8 ++ 0#24) = .ok .decData ∧
  decode (0x12#8 ++ 1#16 ++ 0x61#8) = .error (.reservedBitSet 0x12000161) ∧
  decode (0xFF#8 ++ 0#24) = .error (.unassignedOpcode 0xFF000000)

/-! ### Steps, acceptance, errors (spec/40_engine_control.md, spec/60_exceptions.md) -/

/-- A step is one event (R11, R12): a host write, a host read whose value goes to `reads`, a hardware reset, or
an engine step (R19, R62, R163); and the engine's step runs the decoded command (R88, R91, R92). What the model adds
around `exec`: the event consumed from `events` and the values kept in `reads` (log 4), and RESET's place at the CMD
write (R100). -/
def Obligations.StepRunsTheDecodedCommand : Prop :=
  ∀ (s : State) (i : Instr) (rest : List Event),
    (s.events = .busWrite 0x10 (encode .reset) :: rest → step s = exec .reset { s with events := rest }) ∧
    (i ≠ .reset → decode s.cur = .ok i → s.busy = true → (s.ph = .start ∨ s.ph = .run ∧ streaming i = true) →
      (s.events = [] → step s = exec i s) ∧
      (s.events = .engine :: rest → step s = exec i { s with events := rest })) ∧
    (s.events = [] → step s = engineStep s) ∧
    (s.events = .engine :: rest → step s = engineStep { s with events := rest }) ∧
    (s.events = .hwReset :: rest → step s = .next (resetState { s with events := rest })) ∧
    (∀ off v, s.events = .busWrite off v :: rest → step s = .next (busWrite off v { s with events := rest })) ∧
    (∀ off, s.events = .busRead off :: rest → step s = .next { busReadState off { s with events := rest } with
      reads := s.reads ++ [busReadValue off { s with events := rest }] })

/-- R90: the engine step is enabled exactly when BUSY = 1 and either PH = START, or PH = RUN and the RUN
step is not a stall; when it is not, the engine does nothing, and when it is, something changes. -/
def Obligations.EngineMovesExactlyWhenEnabled : Prop :=
  ∀ s : State, engineStep s = .next s ↔
    ¬ (s.busy = true ∧ (s.ph = .start ∨ (s.ph = .run ∧ stallOf s = none)))

/-- R96: when STALL_IN and STALL_OUT read 1, with the stalls of R105, R123, R124 and R129 written out. -/
def Obligations.StallBitsOfStatus : Prop :=
  ∀ s : State,
    ((busReadValue 0x0C s).getLsbD 14 = true ↔
      s.busy = true ∧ s.ph = .run ∧ s.cnt ≠ 0 ∧ s.inq = [] ∧
      (s.cur = 0x11000000 ∨ (s.cur = 0x31000000 ∧ s.encAccN ≠ 8 ∧ s.encSrN = 0) ∨
        (s.cur = 0x41000000 ∧ s.decShN = 0))) ∧
    ((busReadValue 0x0C s).getLsbD 15 = true ↔
      s.busy = true ∧ s.ph = .run ∧ s.outq.length = s.cfg.outDepth.toNat ∧
      ((s.cur = 0x31000000 ∧ s.encAccN = 8) ∨ (s.cur = 0x32000000 ∧ s.encAccN ≠ 0) ∨
        (s.cur = 0x41000000 ∧ s.decShN ≠ 0 ∧ ∃ sym, walkMove s = .emit sym)))

/-- R88: a CMD write resets, is rejected, or is accepted. -/
def Obligations.CmdWriteAcceptance : Prop :=
  ∀ (s : State) (v : Word),
    (v = 0x01000000 → busWrite 0x10 v s = resetState s) ∧
    (v ≠ 0x01000000 → s.busy = true ∨ s.err = true → busWrite 0x10 v s = { s with rej := true }) ∧
    (v ≠ 0x01000000 → s.busy = false → s.err = false →
      busWrite 0x10 v s = { s with cur := v, carg := s.arg, ph := .start, busy := true, done := false })

/-- R94, R151: whichever command raises, the raising step writes BUSY, ERR, ERRCODE, ERRINFO and PH and
nothing else, with a code of R148; DONE stays 0 (the invariant is what makes it 0 while BUSY = 1). -/
def Obligations.RaisingStepWritesOnlyTheErrorRecord : Prop :=
  ∀ s t : State, engineStep s = .next t → s.err = false → t.err = true →
    t = { s with busy := false, err := true, errCode := t.errCode, errInfo := t.errInfo, ph := .start } ∧
    1 ≤ t.errCode.toNat ∧ t.errCode.toNat ≤ 15 ∧ (ControlInv s → t.done = false)

/-- R153: a pending error stays until it is acknowledged (STATUS bit 2) or the HPU is reset, and no
command starts meanwhile. `Inv`'s clause ERR = 1 implies BUSY = 0 (R55) is the premise on the state. -/
def Obligations.PendingErrorHoldsUntilAcknowledged : Prop :=
  ∀ (s t : State) (e : Event), s.err = true → s.busy = false →
    e ≠ .hwReset →
    (∀ off v, e = .busWrite off v → off.extractLsb' 2 6 = 4 → v ≠ 0x01000000) →
    (∀ off v, e = .busWrite off v → off.extractLsb' 2 6 = 3 → v.getLsbD 2 = false) →
    applyEvent e s = .next t →
    t.err = true ∧ t.errCode = s.errCode ∧ t.errInfo = s.errInfo ∧ t.busy = false ∧ t.cur = s.cur

/-- R30: every bit of STATUS as read, its value after reset, and what a write of `v` clears (bit 2 is
the acknowledgement of R152). -/
def Obligations.StatusRegister : Prop :=
  (∀ s : State,
    (busReadValue 0x0C s).getLsbD 0 = s.busy ∧
    (busReadValue 0x0C s).getLsbD 1 = s.done ∧
    (busReadValue 0x0C s).getLsbD 2 = s.err ∧
    (busReadValue 0x0C s).getLsbD 3 = decide (s.inq.length = s.cfg.inDepth.toNat) ∧
    (busReadValue 0x0C s).getLsbD 4 = decide (s.inq = []) ∧
    (busReadValue 0x0C s).getLsbD 5 = decide (s.outq.length = s.cfg.outDepth.toNat) ∧
    (busReadValue 0x0C s).getLsbD 6 = decide (s.outq = []) ∧
    (busReadValue 0x0C s).getLsbD 7 = s.treeValid ∧
    (busReadValue 0x0C s).getLsbD 8 = s.codesValid ∧
    (busReadValue 0x0C s).getLsbD 9 = s.inOvf ∧
    (busReadValue 0x0C s).getLsbD 10 = s.rej ∧
    (busReadValue 0x0C s).getLsbD 11 = false ∧
    (busReadValue 0x0C s).extractLsb' 12 2 =
      (match s.mode with | .idle => 0#2 | .enc => 1#2 | .dec => 2#2) ∧
    (busReadValue 0x0C s).getLsbD 14 = decide (stallOf s = some .stallIn) ∧
    (busReadValue 0x0C s).getLsbD 15 = decide (stallOf s = some .stallOut) ∧
    (busReadValue 0x0C s).extractLsb' 16 16 = 0#16) ∧
  busReadValue 0x0C State.reset = 0x00000050 ∧
  (∀ (s : State) (v : Word), busWrite 0x0C v s = { s with
    done := if v.getLsbD 1 then false else s.done
    err := if v.getLsbD 2 then false else s.err
    errCode := if v.getLsbD 2 then 0 else s.errCode
    errInfo := if v.getLsbD 2 then 0 else s.errInfo
    inOvf := if v.getLsbD 9 then false else s.inOvf
    rej := if v.getLsbD 10 then false else s.rej })

/-- R154: IRQ is the level `(DONE AND DONE_IE) OR (ERR AND ERR_IE)`; an engine step that ends a command
raises it when the cause is enabled; each of the four ways to clear it drops it; and once raised nothing but a
write of CTRL, STATUS or CMD or a hardware reset drops it. -/
def Obligations.IrqIsRaisedByTheEndingStepAndDroppedByItsCauses : Prop :=
  (∀ s : State, irq s = ((s.done && s.doneIe) || (s.err && s.errIe))) ∧
  (∀ s t : State, engineStep s = .next t → s.busy = true → t.busy = false →
    (t.done = true ∨ t.err = true) ∧ (t.done = true → s.doneIe = true → irq t = true) ∧
    (t.err = true → s.errIe = true → irq t = true)) ∧
  (∀ (s : State) (v : Word), v.getLsbD 1 = true → v.getLsbD 2 = true → irq (busWrite 0x0C v s) = false) ∧
  (∀ s : State, irq (busWrite 0x08 0 s) = false) ∧
  (∀ (s : State) (v : Word), s.busy = false → s.err = false → irq (busWrite 0x10 v s) = false) ∧
  (∀ s : State, irq (resetState s) = false) ∧
  (∀ (s t : State) (e : Event), applyEvent e s = .next t → irq s = true → irq t = false →
    e = .hwReset ∨ ∃ off v, e = .busWrite off v ∧ (off.extractLsb' 2 6).toNat ∈ [0x02, 0x03, 0x04])

/-! ### The register window (spec/10_state.md, spec/20_memory.md) -/

/-- R58: only offset bits [7:2] choose the register. -/
def Obligations.OnlyTheSlotBitsOfAnOffsetMatter : Prop :=
  ∀ (a b v : Word) (s : State), a.extractLsb' 2 6 = b.extractLsb' 2 6 →
    busReadValue a s = busReadValue b s ∧ busReadState a s = busReadState b s ∧ busWrite a v s = busWrite b v s

/-- R60: reserved slots read 0 and ignore writes. Of R61: a read-only register ignores writes as a whole, CMD and
DATA_IN read 0. -/
def Obligations.ReservedAndReadOnlySlots : Prop :=
  ∀ (off v : Word) (s : State),
    (0x17 ≤ (off.extractLsb' 2 6).toNat → busReadValue off s = 0 ∧ busReadState off s = s) ∧
    ((off.extractLsb' 2 6).toNat ∉ [0x02, 0x03, 0x04, 0x05, 0x0C] → busWrite off v s = s) ∧
    ((off.extractLsb' 2 6).toNat ∈ [0x04, 0x0C] → busReadValue off s = 0)

/-- R63: of all reads, only that of DATA_OUT (slot 0x0D) changes the HPU. -/
def Obligations.OnlyTheDataOutReadHasAnEffect : Prop :=
  ∀ (off : Word) (s : State), off.extractLsb' 2 6 ≠ 0x0D → busReadState off s = s

/-- R36 and R37: DATA_IN pushes bits [7:0] or sets IN_OVF; DATA_OUT pops `{1, b}`, or returns 0 when OUT is
empty; the other direction of each does nothing. -/
def Obligations.DataRegisters : Prop :=
  ∀ (s : State) (v : Word),
    (s.inq.length ≠ s.cfg.inDepth.toNat →
      busWrite 0x30 v s = { s with inq := s.inq ++ [v.extractLsb' 0 8] }) ∧
    (s.inq.length = s.cfg.inDepth.toNat → busWrite 0x30 v s = { s with inOvf := true }) ∧
    busReadValue 0x30 s = 0 ∧ busReadState 0x30 s = s ∧
    (∀ b rest, s.outq = b :: rest →
      busReadValue 0x34 s = 0x100 + b.setWidth 32 ∧ busReadState 0x34 s = { s with outq := rest }) ∧
    (s.outq = [] → busReadValue 0x34 s = 0 ∧ busReadState 0x34 s = s) ∧
    busWrite 0x34 v s = s

/-- R29 and R32: CTRL's two bits and ARG, written and read back; the bits drive IRQ, and ARG reaches a command
through CARG at acceptance only. -/
def Obligations.ControlAndArgumentRegisters : Prop :=
  ∀ (s : State) (v : Word),
    busWrite 0x08 v s = { s with doneIe := v.getLsbD 0, errIe := v.getLsbD 1 } ∧
    (busReadValue 0x08 s).getLsbD 0 = s.doneIe ∧ (busReadValue 0x08 s).getLsbD 1 = s.errIe ∧
    (busReadValue 0x08 s).extractLsb' 2 30 = 0 ∧ busReadValue 0x08 State.reset = 0 ∧
    irq s = ((s.done && s.doneIe) || (s.err && s.errIe)) ∧
    busWrite 0x14 v s = { s with arg := v } ∧ busReadValue 0x14 s = s.arg ∧ busReadValue 0x14 State.reset = 0 ∧
    (v ≠ 0x01000000 → s.busy = false → s.err = false → (busWrite 0x10 v s).carg = s.arg)

/-- R27, R28, R33, R34, R38 to R45: what the constant, computed and read-only registers read, and that they
ignore writes. ERRCODE and ERRINFO are 0 without a pending error by the invariant. -/
def Obligations.ReadOnlyRegisterValues : Prop :=
  (∀ s : State,
    busReadValue 0x00 s = 0x48554646 ∧
    busReadValue 0x04 s = 0x00010000 ∧
    busReadValue 0x38 s = BitVec.ofNat 16 s.outq.length ++ BitVec.ofNat 16 s.inq.length ∧
    (busReadValue 0x3C s).toNat = (Finset.univ.filter fun b : Byte => (ftAt s b).present = true).card ∧
    (s.treeValid = true → (busReadValue 0x40 s).extractLsb' 0 9 = s.root ∧
      (busReadValue 0x40 s).extractLsb' 16 9 = s.nodeCount ∧
      (busReadValue 0x40 s).extractLsb' 9 7 = 0 ∧ (busReadValue 0x40 s).extractLsb' 25 7 = 0) ∧
    (s.treeValid = false → busReadValue 0x40 s = 0) ∧
    busReadValue 0x18 s = s.errCode.setWidth 32 ∧ busReadValue 0x1C s = s.errInfo ∧
    (ControlInv s → s.err = false → busReadValue 0x18 s = 0 ∧ busReadValue 0x1C s = 0) ∧
    busReadValue 0x44 s = s.pad.setWidth 32 ∧
    busReadValue 0x48 s = s.bitcnt.extractLsb' 0 32 ∧ busReadValue 0x4C s = s.bitcnt.extractLsb' 32 32 ∧
    busReadValue 0x50 s = s.decRem ∧
    busReadValue 0x54 s = s.symcnt ∧
    (busReadValue 0x58 s).extractLsb' 0 16 = s.cfg.inDepth ∧
    (busReadValue 0x58 s).extractLsb' 16 16 = s.cfg.outDepth ∧
    (∀ (e : Event) (t : State), applyEvent e s = .next t → t.cfg = s.cfg)) ∧
  (∀ off ∈ ([0x18, 0x1C, 0x38, 0x3C, 0x40, 0x44, 0x48, 0x4C, 0x50, 0x54] : List Word),
    busReadValue off State.reset = 0) ∧
  (∀ off ∈ ([0x00, 0x04, 0x18, 0x1C, 0x38, 0x3C, 0x40, 0x44, 0x48, 0x4C, 0x50, 0x54, 0x58] : List Word),
    ∀ (s : State) (v : Word), busWrite off v s = s)

/-- R35: RESULT0..3 are read-only, 0 after reset, and of all engine steps only a step that ends a command
successfully changes one, the commands being those whose rules name it. -/
def Obligations.ResultsChangeOnlyByTheCommandsThatNameThem : Prop :=
  (∀ (s : State) (v : Word),
    busReadValue 0x20 s = s.result0 ∧ busReadValue 0x24 s = s.result1 ∧ busReadValue 0x28 s = s.result2 ∧
    busReadValue 0x2C s = s.result3 ∧
    busWrite 0x20 v s = s ∧ busWrite 0x24 v s = s ∧ busWrite 0x28 v s = s ∧ busWrite 0x2C v s = s) ∧
  (State.reset.result0 = 0 ∧ State.reset.result1 = 0 ∧ State.reset.result2 = 0 ∧ State.reset.result3 = 0) ∧
  (∀ s t : State, engineStep s = .next t →
    (t.result0 ≠ s.result0 ∨ t.result1 ≠ s.result1 ∨ t.result2 ≠ s.result2 ∨ t.result3 ≠ s.result3) →
    s.busy = true ∧ t.busy = false ∧ t.done = true ∧
    (∃ i, decode s.cur = .ok i ∧
      (t.result0 ≠ s.result0 → i = .treeBuild ∨ i = .codeGen ∨ i = .encFlush ∨ i = .decFinish ∨
        (∃ k, i = .ftGet k) ∨ (∃ b, i = .ftRead b) ∨ (∃ k, i = .nodeRead k) ∨ (∃ b k, i = .codeRead b k)) ∧
      (t.result1 ≠ s.result1 → i = .treeBuild ∨ i = .codeGen ∨ i = .encFlush ∨
        (∃ k, i = .ftGet k) ∨ (∃ b, i = .ftRead b) ∨ (∃ k, i = .nodeRead k) ∨ (∃ b k, i = .codeRead b k)) ∧
      (t.result2 ≠ s.result2 → i = .encFlush ∨ ∃ k, i = .nodeRead k) ∧
      (t.result3 ≠ s.result3 → ∃ k, i = .nodeRead k)))

/-! ### Reset (spec/10_state.md R56, spec/70_reset_and_hazards.md) -/

/-- R56: the value of every piece of state after either reset; NODE and CODE are left out, as the spec
leaves them. IN_DEPTH and OUT_DEPTH are constants. -/
def Obligations.ResetValues : Prop :=
  ∀ s : State, ∃ t : State,
    applyEvent .hwReset s = .next t ∧ busWrite 0x10 0x01000000 s = t ∧ exec .reset s = .next t ∧
    t.cfg = s.cfg ∧ t.doneIe = false ∧ t.errIe = false ∧
    t.busy = false ∧ t.done = false ∧ t.err = false ∧ t.inOvf = false ∧ t.rej = false ∧
    busReadValue 0x08 t = 0 ∧ (s.cfg.Valid → busReadValue 0x0C t = 0x00000050) ∧
    t.arg = 0 ∧ t.errCode = 0 ∧ t.errInfo = 0 ∧
    t.result0 = 0 ∧ t.result1 = 0 ∧ t.result2 = 0 ∧ t.result3 = 0 ∧
    t.inq = [] ∧ t.outq = [] ∧ (∀ b, ftAt t b = { present := false, count := 0 }) ∧
    t.treeValid = false ∧ t.root = 0 ∧ t.nodeCount = 0 ∧ t.codesValid = false ∧ t.mode = .idle ∧
    t.encAcc = 0 ∧ t.encAccN = 0 ∧ t.encSr = 0 ∧ t.encSrN = 0 ∧ t.bitcnt = 0 ∧ t.pad = 0 ∧
    t.decRem = 0 ∧ t.decWalk = 0 ∧ t.decSh = 0 ∧ t.decShN = 0 ∧ t.symcnt = 0 ∧
    t.cur = 0 ∧ t.carg = 0 ∧ t.cnt = 0 ∧ t.ph = .start ∧
    busReadValue 0x00 t = 0x48554646 ∧ busReadValue 0x04 t = 0x00010000 ∧
    busReadValue 0x58 t = busReadValue 0x58 s ∧ irq t = false

/-- R164: what an invalid table holds cannot be observed. While no tree is valid (so no codes are, R55), with
any other contents `n`, `c` of NODE and CODE the next step answers the same state but for entries of NODE and CODE
that again no command can read; while no codes are valid, whether or not a tree is, the same of CODE alone with any
other contents `c`. Every register reads the same after it. -/
def Obligations.InvalidTablesCannotBeObserved : Prop :=
  (∀ (s t : State) (n : Vector NodeEntry 511) (c : Vector CodeEntry 256),
    ControlInv s → s.treeValid = false → step s = .next t →
    ∃ t', step { s with node := n, code := c } = .next t' ∧
      t' = { t with node := t'.node, code := t'.code } ∧
      (∀ off, busReadValue off t' = busReadValue off t) ∧
      t.codesValid = false ∧
      (t.treeValid = true → ∀ k : Fin 511, k.val < t.nodeCount.toNat → t'.node[k] = t.node[k])) ∧
  (∀ (s t : State) (c : Vector CodeEntry 256), ControlInv s → s.codesValid = false → step s = .next t →
    ∃ t', step { s with code := c } = .next t' ∧ t' = { t with code := t'.code } ∧
      (∀ off, busReadValue off t' = busReadValue off t) ∧
      (t.codesValid = true → t'.code = t.code))

/-! ### Control commands (R99, R101) -/

/-- R99: NOP only completes. -/
def Obligations.NopOnlyCompletes : Prop :=
  decode 0x00000000 = .ok .nop ∧
  ∀ s : State, exec .nop s = .next { s with busy := false, done := true, ph := .start }

/-- R101: FIFO_CLR empties the chosen FIFOs and changes nothing else. -/
def Obligations.FifoClrEmptiesTheChosenFifos : Prop :=
  (∀ i o : Bool, decode (0x02#8 ++ 0#22 ++ BitVec.ofBool o ++ BitVec.ofBool i) = .ok (.fifoClr i o)) ∧
  ∀ (s : State) (i o : Bool), exec (.fifoClr i o) s = .next { s with
    inq := if i = true then [] else s.inq
    outq := if o = true then [] else s.outq
    busy := false, done := true, ph := .start }

/-! ### Frequency table (spec/41_frequency.md) -/

/-- R104: FT_CLEAR empties the table and invalidates tree, codes and stream. -/
def Obligations.FtClearEmptiesTheTable : Prop :=
  decode 0x10000000 = .ok .ftClear ∧
  ∀ s : State, ∃ t, exec .ftClear s = .next t ∧
    t = { s with
      ft := t.ft, treeValid := false, codesValid := false, mode := .idle
      busy := false, done := true, ph := .start } ∧
    (∀ b, ftAt t b = { present := false, count := 0 }) ∧ busReadValue 0x3C t = 0

/-- R105: FT_COUNT's start part and each branch of its RUN step. -/
def Obligations.FtCountSteps : Prop :=
  decode 0x11000000 = .ok .ftCount ∧
  ∀ s : State,
    (s.ph = .start → exec .ftCount s = .next { s with
      treeValid := false, codesValid := false, mode := .idle, cnt := s.carg, ph := .run }) ∧
    (s.ph = .run → s.cnt = 0 →
      exec .ftCount s = .next { s with busy := false, done := true, ph := .start }) ∧
    (s.ph = .run → s.cnt ≠ 0 → s.inq = [] → exec .ftCount s = .next s) ∧
    (∀ b rest, s.ph = .run → s.cnt ≠ 0 → s.inq = b :: rest → (ftAt s b).count.toNat = 2 ^ 32 - 1 →
      exec .ftCount s = .next { s with
        busy := false, err := true, errCode := 0x06, errInfo := b.setWidth 32, ph := .start }) ∧
    (∀ b rest, s.ph = .run → s.cnt ≠ 0 → s.inq = b :: rest → (ftAt s b).count.toNat ≠ 2 ^ 32 - 1 →
      ∃ t, exec .ftCount s = .next t ∧
        t = { s with ft := t.ft, inq := rest, cnt := s.cnt - 1 } ∧
        (ftAt t b).present = true ∧ (ftAt t b).count.toNat = (ftAt s b).count.toNat + 1 ∧
        ∀ c, c ≠ b → ftAt t c = ftAt s c)

/-- R106: fed `N` bytes, with no count passing 2^32 - 1, FT_COUNT completes after `N + 1` RUN steps with
every count raised by the number of its byte's occurrences, and the symbols that occur present. -/
def Obligations.FtCountCountsItsBytes : Prop :=
  ∀ (s : State) (bs rest : List Byte),
    s.busy = true → s.ph = .run → s.cur = 0x11000000 → s.inq = bs ++ rest → s.cnt.toNat = bs.length →
    (∀ b, (ftAt s b).count.toNat + bs.count b < 2 ^ 32) →
    ∃ t, engineTimes (bs.length + 1) s = .next t ∧
      t = { s with ft := t.ft, inq := rest, cnt := 0, busy := false, done := true, ph := .start } ∧
      ∀ b, (ftAt t b).count.toNat = (ftAt s b).count.toNat + bs.count b ∧
        ((ftAt t b).present = true ↔ (ftAt s b).present = true ∨ b ∈ bs)

/-- R107: FT_LOAD adds an absent symbol's entry, and raises DUP_SYMBOL for a present one. -/
def Obligations.FtLoadAddsOneEntry : Prop :=
  (∀ x : Byte, decode (0x12#8 ++ 0#16 ++ x) = .ok (.ftLoad x)) ∧
  ∀ (s : State) (x : Byte),
    ((ftAt s x).present = true → exec (.ftLoad x) s = .next { s with
      busy := false, err := true, errCode := 0x07, errInfo := x.setWidth 32, ph := .start }) ∧
    ((ftAt s x).present = false → ∃ t, exec (.ftLoad x) s = .next t ∧
      t = { s with
        ft := t.ft, treeValid := false, codesValid := false, mode := .idle
        busy := false, done := true, ph := .start } ∧
      ftAt t x = { present := true, count := s.carg } ∧ ∀ c, c ≠ x → ftAt t c = ftAt s c)

/-- R108: FT_GET k answers the present symbol with exactly k present symbols below it, and raises
BAD_INDEX when k >= n_sym. -/
def Obligations.FtGetFindsTheKthPresentEntry : Prop :=
  (∀ k : BitVec 9, decode (0x13#8 ++ 0#15 ++ k) = .ok (.ftGet k)) ∧
  ∀ (s : State) (k : BitVec 9),
    ((Finset.univ.filter fun b : Byte => (ftAt s b).present = true).card ≤ k.toNat →
      exec (.ftGet k) s = .next { s with
        busy := false, err := true, errCode := 0x08, errInfo := k.setWidth 32, ph := .start }) ∧
    (k.toNat < (Finset.univ.filter fun b : Byte => (ftAt s b).present = true).card →
      ∃ x : Byte, (ftAt s x).present = true ∧ presentBelow s x = k.toNat ∧
        exec (.ftGet k) s = .next { s with
          result0 := x.setWidth 32, result1 := (ftAt s x).count, busy := false, done := true, ph := .start })

/-- R109: FT_READ answers one symbol's entry. -/
def Obligations.FtReadAnswersTheEntry : Prop :=
  (∀ x : Byte, decode (0x14#8 ++ 0#16 ++ x) = .ok (.ftRead x)) ∧
  ∀ (s : State) (x : Byte), exec (.ftRead x) s = .next { s with
    result0 := if (ftAt s x).present = true then 1 else 0
    result1 := (ftAt s x).count, busy := false, done := true, ph := .start }

/-! ### Tree and codes (spec/42_tree_code.md) -/

/-- R112, R113, R117: TREE_BUILD on a non-empty table numbers the leaves by symbol and makes every internal node
from the two nodes of least key not yet taken, the least on the left; what it writes besides is written
out. On an empty table it raises EMPTY_INPUT. The last clause, that entries of NODE from NODE_COUNT on keep their
values, is log 15's (DEDUCED from R117's "keep unspecified old values", where R47 and 93_implementation_defined.md
allow any value). -/
def Obligations.TreeBuildMergesTheLeastPairs : Prop :=
  decode 0x20000000 = .ok .treeBuild ∧
  ∀ s : State,
    (nSym s = 0 → exec .treeBuild s = .next { s with
      busy := false, err := true, errCode := 0x02, errInfo := 0, ph := .start }) ∧
    (nSym s ≠ 0 → ∃ t, exec .treeBuild s = .next t ∧
      t = { s with
        node := t.node, root := t.root, nodeCount := t.nodeCount, treeValid := true, codesValid := false
        mode := .idle, result0 := t.root.setWidth 32, result1 := t.nodeCount.setWidth 32
        busy := false, done := true, ph := .start } ∧
      t.nodeCount.toNat = 2 * nSym s - 1 ∧ t.root.toNat = 2 * nSym s - 2 ∧
      (∀ k : Fin 511, k.val < nSym s → ∃ x : Byte, (ftAt s x).present = true ∧ presentBelow s x = k.val ∧
        t.node[k] = { leaf := true, sym := x, left := 0, right := 0, w := (ftAt s x).count.setWidth 40 }) ∧
      (∀ k : Fin 511, nSym s ≤ k.val → k.val < t.nodeCount.toNat →
        (t.node[k]).leaf = false ∧ (t.node[k]).sym = 0 ∧ MergesLeast t k) ∧
      (∀ k : Fin 511, t.nodeCount.toNat ≤ k.val → t.node[k] = s.node[k]))

/-- R116: after TREE_BUILD the tree has its shape, every leaf is reached from ROOT by exactly one path, and
ROOT's weight is the sum of the counts. -/
def Obligations.TreeBuildGivesATree : Prop :=
  ∀ s t : State, nSym s ≠ 0 → exec .treeBuild s = .next t →
    TreeShape t ∧
    (∀ j : Fin 511, j.val < nSym s → ∃! p, follow t t.root p = some (BitVec.ofNat 9 j.val)) ∧
    ∃ r ∈ nodeAt t t.root, r.w.toNat =
      ∑ b : Byte, (if (ftAt s b).present = true then (ftAt s b).count.toNat else 0)

/-- R115: the tree depends only on the present (symbol, count) pairs. -/
def Obligations.TreeDependsOnlyOnThePresentPairs : Prop :=
  ∀ s s' t t' : State,
    (∀ b, (ftAt s b).present = (ftAt s' b).present ∧
      ((ftAt s b).present = true → (ftAt s b).count = (ftAt s' b).count)) →
    nSym s ≠ 0 → exec .treeBuild s = .next t → exec .treeBuild s' = .next t' →
    t.root = t'.root ∧ t.nodeCount = t'.nodeCount ∧
    ∀ k : Fin 511, k.val < t.nodeCount.toNat → t.node[k] = t'.node[k]

/-- R118: CODE_GEN gives every present symbol the path of its leaf and every absent one the empty
entry; RESULT0 is the longest length, RESULT1 the number of codes. With no valid tree it raises NO_TREE. -/
def Obligations.CodeGenGivesTheTreePaths : Prop :=
  decode 0x21000000 = .ok .codeGen ∧
  ∀ s : State,
    (s.treeValid = false → exec .codeGen s = .next { s with
      busy := false, err := true, errCode := 0x03, errInfo := 0, ph := .start }) ∧
    (s.treeValid = true → TreeShape s → ∃ t, exec .codeGen s = .next t ∧
      t = { s with
        code := t.code, codesValid := true, mode := .idle, result0 := t.result0, result1 := t.result1
        busy := false, done := true, ph := .start } ∧
      (∀ b, (ftAt s b).present = true → ∃ p, IsCodePath s b p ∧ 1 ≤ p.length ∧ p.length ≤ 255 ∧
        (codeAt t b).len.toNat = p.length ∧ codeString t b = p) ∧
      (∀ b, (ftAt s b).present = false → codeAt t b = { len := 0, bits := 0 }) ∧
      (∀ b, (codeAt t b).bits.toNat < 2 ^ (codeAt t b).len.toNat) ∧
      (∀ b, (codeAt t b).len.toNat ≤ t.result0.toNat) ∧ (∃ b, (codeAt t b).len.toNat = t.result0.toNat) ∧
      t.result1.toNat = nSym s)

/-- R119: after CODE_GEN no code is a prefix of another and every present symbol's code is non-empty. -/
def Obligations.CodesArePrefixFree : Prop :=
  ∀ s t : State, s.treeValid = true → TreeShape s → exec .codeGen s = .next t →
    (∀ b, (ftAt s b).present = true → codeString t b ≠ []) ∧
    ∀ a b, a ≠ b → codeString t a ≠ [] → codeString t b ≠ [] → ¬ codeString t a <+: codeString t b

/-- R132: decoding the concatenated codes of any bytes that have one gives the bytes back and ends at
ROOT, in particular for a single-leaf tree. -/
def Obligations.DecodingInvertsTheCodes : Prop :=
  ∀ (s t : State) (bs : List Byte), s.treeValid = true → TreeShape s → exec .codeGen s = .next t →
    (∀ b ∈ bs, (codeAt t b).len ≠ 0) →
    decodeBits t t.root (bs.flatMap (codeString t)) = some (bs, t.root)

/-- R120: NODE_READ, its two checks in their order, and the four result words. -/
def Obligations.NodeReadAnswersTheNode : Prop :=
  (∀ k : NodeIdx, decode (0x22#8 ++ 0#15 ++ k) = .ok (.nodeRead k)) ∧
  ∀ (s : State) (k : NodeIdx),
    (s.treeValid = false → exec (.nodeRead k) s = .next { s with
      busy := false, err := true, errCode := 0x03, errInfo := 0, ph := .start }) ∧
    (s.treeValid = true → s.nodeCount.toNat ≤ k.toNat → exec (.nodeRead k) s = .next { s with
      busy := false, err := true, errCode := 0x08, errInfo := k.setWidth 32, ph := .start }) ∧
    (s.treeValid = true → k.toNat < s.nodeCount.toNat → ∀ h : k.toNat < 511,
      exec (.nodeRead k) s = .next { s with
        result0 := BitVec.ofBool (s.node[k.toNat]'h).leaf ++ 0#23 ++ (s.node[k.toNat]'h).sym
        result1 := 0#7 ++ (s.node[k.toNat]'h).right ++ 0#7 ++ (s.node[k.toNat]'h).left
        result2 := (s.node[k.toNat]'h).w.extractLsb' 0 32
        result3 := 0#24 ++ (s.node[k.toNat]'h).w.extractLsb' 32 8
        busy := false, done := true, ph := .start })

/-- R121: CODE_READ answers the length and word `W` of the code. -/
def Obligations.CodeReadAnswersOneWord : Prop :=
  (∀ (x : Byte) (w : BitVec 3), decode (0x23#8 ++ 0#13 ++ w ++ x) = .ok (.codeRead x w)) ∧
  ∀ (s : State) (x : Byte) (w : BitVec 3),
    (s.codesValid = false → exec (.codeRead x w) s = .next { s with
      busy := false, err := true, errCode := 0x04, errInfo := 0, ph := .start }) ∧
    (s.codesValid = true → ∃ t, exec (.codeRead x w) s = .next t ∧
      t = { s with
        result0 := (codeAt s x).len.setWidth 32, result1 := t.result1, busy := false, done := true, ph := .start } ∧
      ∀ j : Fin 32, t.result1.getLsbD j.val = (codeAt s x).bits.getLsbD (32 * w.toNat + j.val))

/-! ### Encoding and packing (spec/43_encode_pack.md) -/

/-- R122: ENC_INIT opens a stream. -/
def Obligations.EncInitOpensAStream : Prop :=
  decode 0x30000000 = .ok .encInit ∧
  ∀ s : State,
    (s.codesValid = false → exec .encInit s = .next { s with
      busy := false, err := true, errCode := 0x04, errInfo := 0, ph := .start }) ∧
    (s.codesValid = true → exec .encInit s = .next { s with
      mode := .enc, encAcc := 0, encAccN := 0, encSr := 0, encSrN := 0, bitcnt := 0, pad := 0
      busy := false, done := true, ph := .start })

/-- R123: ENC_DATA's start part and each branch of its RUN step, in their order. -/
def Obligations.EncDataSteps : Prop :=
  decode 0x31000000 = .ok .encData ∧
  ∀ s : State,
    (s.ph = .start → s.mode ≠ .enc → exec .encData s = .next { s with
      busy := false, err := true, errCode := 0x0E, errInfo := if s.mode = .dec then 2 else 0, ph := .start }) ∧
    (s.ph = .start → s.mode = .enc → exec .encData s = .next { s with cnt := s.carg, ph := .run }) ∧
    (s.ph = .run → s.encAccN = 8 → s.outq.length = s.cfg.outDepth.toNat → exec .encData s = .next s) ∧
    (s.ph = .run → s.encAccN = 8 → s.outq.length ≠ s.cfg.outDepth.toNat → exec .encData s = .next { s with
      outq := s.outq ++ [s.encAcc], encAcc := 0, encAccN := 0 }) ∧
    (s.ph = .run → s.encAccN ≠ 8 → s.encSrN ≠ 0 → ∃ t, exec .encData s = .next t ∧
      t = { s with encAcc := t.encAcc, encAccN := t.encAccN, encSrN := s.encSrN - 1, bitcnt := s.bitcnt + 1 } ∧
      t.encAccN.val = s.encAccN.val + 1 ∧
      t.encAcc.toNat = (2 * s.encAcc.toNat + (s.encSr.getLsbD (s.encSrN.toNat - 1)).toNat) % 256) ∧
    (s.ph = .run → s.encAccN ≠ 8 → s.encSrN = 0 → s.cnt ≠ 0 → s.inq = [] → exec .encData s = .next s) ∧
    (∀ b rest, s.ph = .run → s.encAccN ≠ 8 → s.encSrN = 0 → s.cnt ≠ 0 → s.inq = b :: rest →
      (codeAt s b).len = 0 → exec .encData s = .next { s with
        busy := false, err := true, errCode := 0x05, errInfo := b.setWidth 32, ph := .start }) ∧
    (∀ b rest, s.ph = .run → s.encAccN ≠ 8 → s.encSrN = 0 → s.cnt ≠ 0 → s.inq = b :: rest →
      (codeAt s b).len ≠ 0 → exec .encData s = .next { s with
        inq := rest, encSr := (codeAt s b).bits, encSrN := (codeAt s b).len, cnt := s.cnt - 1 }) ∧
    (s.ph = .run → s.encAccN ≠ 8 → s.encSrN = 0 → s.cnt = 0 →
      exec .encData s = .next { s with busy := false, done := true, ph := .start })

/-- R124: ENC_FLUSH's start part and each branch of its RUN step. -/
def Obligations.EncFlushSteps : Prop :=
  decode 0x32000000 = .ok .encFlush ∧
  ∀ s : State,
    (s.ph = .start → s.mode ≠ .enc → exec .encFlush s = .next { s with
      busy := false, err := true, errCode := 0x0E, errInfo := if s.mode = .dec then 2 else 0, ph := .start }) ∧
    (s.ph = .start → s.mode = .enc → exec .encFlush s = .next { s with ph := .run }) ∧
    (s.ph = .run → s.encAccN ≠ 0 → s.outq.length = s.cfg.outDepth.toNat → exec .encFlush s = .next s) ∧
    (s.ph = .run → s.encAccN ≠ 0 → s.outq.length ≠ s.cfg.outDepth.toNat → exec .encFlush s = .next { s with
      outq := s.outq ++ [BitVec.ofNat 8 (s.encAcc.toNat * 2 ^ (8 - s.encAccN.val))]
      pad := BitVec.ofNat 3 (8 - s.encAccN.val), encAcc := 0, encAccN := 0, mode := .idle
      result0 := BitVec.ofNat 32 (8 - s.encAccN.val)
      result1 := s.bitcnt.extractLsb' 0 32, result2 := s.bitcnt.extractLsb' 32 32
      busy := false, done := true, ph := .start }) ∧
    (s.ph = .run → s.encAccN = 0 → exec .encFlush s = .next { s with
      pad := 0, encAcc := 0, encAccN := 0, mode := .idle, result0 := 0
      result1 := s.bitcnt.extractLsb' 0 32, result2 := s.bitcnt.extractLsb' 32 32
      busy := false, done := true, ph := .start })

/-- R125, one step: a RUN step of ENC_DATA neither drops nor reorders a bit. It either keeps the string
of bits packed, being packed and to be packed, or takes a byte from IN and appends that byte's code; and
BITCNT counts the bits that enter the accumulator. -/
def Obligations.EncDataStepKeepsTheBitSequence : Prop :=
  ∀ s t : State, s.ph = .run → exec .encData s = .next t → t.err = s.err →
    ((packerBits t = packerBits s ∧ t.inq = s.inq) ∨
      ∃ b, s.inq = b :: t.inq ∧ codeString s b ≠ [] ∧ packerBits t = packerBits s ++ codeString s b) ∧
    t.bitcnt.toNat = (s.bitcnt.toNat + (s.encSrN.toNat - t.encSrN.toNat)) % 2 ^ 64

/-- R125, a whole ENC_DATA: if the engine alone brings a running ENC_DATA to its successful end, then it
has taken exactly CNT bytes from IN, the packer's bits are extended by exactly their codes in order, no
code bit is left over and no full group is held back. -/
def Obligations.EncDataPacksTheCodesInOrder : Prop :=
  ∀ (s t : State) (k : Nat), s.busy = true → s.ph = .run → s.cur = 0x31000000 → s.err = false →
    engineTimes k s = .next t → t.busy = false → t.err = false →
    ∃ bs : List Byte, s.inq = bs ++ t.inq ∧ bs.length = s.cnt.toNat ∧
      packerBits t = packerBits s ++ bs.flatMap (codeString s) ∧ t.encSrN = 0 ∧ t.encAccN ≠ 8

/-- R126, R65: ENC_FLUSH with room in OUT leaves `PAD = (8 - (BITCNT mod 8)) mod 8`, and OUT then holds the
packed bits followed by PAD zero bits. The premises are the invariant and that the flush is running. -/
def Obligations.FlushPadsToAByte : Prop :=
  ∀ s : State, ControlInv s → s.ph = .run → s.cur = 0x32000000 → s.outq.length ≠ s.cfg.outDepth.toNat →
    ∃ t, exec .encFlush s = .next t ∧
      t.pad.toNat = (8 - s.bitcnt.toNat % 8) % 8 ∧
      byteBits t.outq = byteBits s.outq ++ bitString s.encAccN.val s.encAcc.toNat ++ List.replicate t.pad.toNat false

/-! ### Unpacking and decoding (spec/44_decode_unpack.md) -/

/-- R128: DEC_INIT, its three checks in their order, and the decode it opens. -/
def Obligations.DecInitOpensADecode : Prop :=
  (∀ p : Byte, decode (0x40#8 ++ 0#16 ++ p) = .ok (.decInit p)) ∧
  ∀ (s : State) (p : Byte),
    (s.treeValid = false → exec (.decInit p) s = .next { s with
      busy := false, err := true, errCode := 0x03, errInfo := 0, ph := .start }) ∧
    (s.treeValid = true → 7 < p.toNat → exec (.decInit p) s = .next { s with
      busy := false, err := true, errCode := 0x09, errInfo := p.setWidth 32, ph := .start }) ∧
    (s.treeValid = true → p.toNat ≤ 7 → s.carg = 0 → exec (.decInit p) s = .next { s with
      busy := false, err := true, errCode := 0x0A, errInfo := 0, ph := .start }) ∧
    (s.treeValid = true → p.toNat ≤ 7 → s.carg ≠ 0 → exec (.decInit p) s = .next { s with
      mode := .dec, decRem := s.carg, pad := BitVec.ofNat 3 p.toNat, decWalk := s.root, decSh := 0, decShN := 0
      symcnt := 0, busy := false, done := true, ph := .start })

/-- R129: DEC_DATA's start part and each branch of its RUN step, in their order. `e` is the node the walk
is at, `f` the node the bit leads to. -/
def Obligations.DecDataSteps : Prop :=
  decode 0x41000000 = .ok .decData ∧
  ∀ s : State,
    (s.ph = .start → s.mode ≠ .dec → exec .decData s = .next { s with
      busy := false, err := true, errCode := 0x0E, errInfo := if s.mode = .enc then 1 else 0, ph := .start }) ∧
    (s.ph = .start → s.mode = .dec → s.decRem.toNat < s.carg.toNat → exec .decData s = .next { s with
      busy := false, err := true, errCode := 0x0B, errInfo := s.carg, ph := .start }) ∧
    (s.ph = .start → s.mode = .dec → s.carg.toNat ≤ s.decRem.toNat →
      exec .decData s = .next { s with cnt := s.carg, ph := .run }) ∧
    (∀ e, s.ph = .run → s.decShN ≠ 0 → nodeAt s s.decWalk = some e → e.leaf = true → s.decSh.getLsbD 7 = true →
      exec .decData s = .next { s with
        busy := false, err := true, errCode := 0x0F, errInfo := s.symcnt, ph := .start }) ∧
    (∀ e f nxt, s.ph = .run → s.decShN ≠ 0 → nodeAt s s.decWalk = some e →
      (e.leaf = true ∧ s.decSh.getLsbD 7 = false ∧ nxt = s.decWalk ∨
        e.leaf = false ∧ s.decSh.getLsbD 7 = false ∧ nxt = e.left ∨
        e.leaf = false ∧ s.decSh.getLsbD 7 = true ∧ nxt = e.right) → nodeAt s nxt = some f →
      (f.leaf = true → s.outq.length = s.cfg.outDepth.toNat → exec .decData s = .next s) ∧
      (f.leaf = true → s.outq.length ≠ s.cfg.outDepth.toNat → ∃ t, exec .decData s = .next t ∧
        t = { s with outq := s.outq ++ [f.sym], symcnt := s.symcnt + 1, decWalk := s.root
                     decSh := s.decSh <<< 1, decShN := t.decShN } ∧ t.decShN.val = s.decShN.val - 1) ∧
      (f.leaf = false → ∃ t, exec .decData s = .next t ∧
        t = { s with decWalk := nxt, decSh := s.decSh <<< 1, decShN := t.decShN } ∧
        t.decShN.val = s.decShN.val - 1)) ∧
    (s.ph = .run → s.decShN = 0 → s.cnt ≠ 0 → s.inq = [] → exec .decData s = .next s) ∧
    (∀ b rest, s.ph = .run → s.decShN = 0 → s.cnt ≠ 0 → s.inq = b :: rest → ∃ t, exec .decData s = .next t ∧
      t = { s with inq := rest, cnt := s.cnt - 1, decRem := s.decRem - 1, decSh := b, decShN := t.decShN } ∧
      t.decShN.val = (if s.decRem = 1 then 8 - s.pad.toNat else 8)) ∧
    (s.ph = .run → s.decShN = 0 → s.cnt = 0 →
      exec .decData s = .next { s with busy := false, done := true, ph := .start })

/-- R130: DEC_FINISH, its three checks in their order, and the end of the decode. -/
def Obligations.DecFinishChecksTheEnd : Prop :=
  decode 0x42000000 = .ok .decFinish ∧
  ∀ s : State,
    (s.mode ≠ .dec → exec .decFinish s = .next { s with
      busy := false, err := true, errCode := 0x0E, errInfo := if s.mode = .enc then 1 else 0, ph := .start }) ∧
    (s.mode = .dec → s.decRem ≠ 0 → exec .decFinish s = .next { s with
      busy := false, err := true, errCode := 0x0C, errInfo := s.decRem, ph := .start }) ∧
    (s.mode = .dec → s.decRem = 0 → s.decShN ≠ 0 ∨ s.decWalk ≠ s.root → exec .decFinish s = .next { s with
      busy := false, err := true, errCode := 0x0D, errInfo := s.decWalk.setWidth 32, ph := .start }) ∧
    (s.mode = .dec → s.decRem = 0 → s.decShN = 0 → s.decWalk = s.root → exec .decFinish s = .next { s with
      mode := .idle, result0 := s.symcnt, busy := false, done := true, ph := .start })

/-- R131 with R129's walk: if the engine alone brings a running DEC_DATA to its successful end, then the
symbols pushed and the walk left are those HFC's decoding gives for exactly the payload bits, the padding
of the last byte trimmed. -/
def Obligations.DecDataDecodesThePayloadBits : Prop :=
  ∀ (s t : State) (k : Nat), Inv s → s.busy = true → s.ph = .run → s.cur = 0x41000000 → s.err = false →
    engineTimes k s = .next t → t.busy = false → t.err = false →
    ∃ syms : List Byte, decodeBits s s.decWalk (pendingBits s) = some (syms, t.decWalk) ∧
      t.outq = s.outq ++ syms ∧ t.symcnt = s.symcnt + BitVec.ofNat 32 syms.length ∧
      t.decRem.toNat = s.decRem.toNat - s.cnt.toNat ∧ t.decShN = 0

/-! ### The whole machine -/

/-- The machine after reset meets the invariant (R55, R56). -/
def Obligations.ResetMeetsTheInvariant : Prop := Inv State.reset

/-- R55 points 1, 2, 3, 5, 7 with the FIFO capacities, the error record and the RUN phase: every step keeps
them, from every state, whatever event comes. -/
def Obligations.EveryStepKeepsTheControlInvariant : Prop :=
  ∀ s t : State, ControlInv s → step s = .next t → ControlInv t

/-- R55 with R116, R48, R109: every step keeps the whole invariant. -/
def Obligations.EveryStepKeepsTheInvariant : Prop :=
  ∀ s t : State, Inv s → step s = .next t → Inv t

/-- No step stops: from a state that meets the invariant every event has a next state, which meets it too (R62,
R90; the model's faults are unreachable, log 6). -/
def Obligations.NoStepStopsUnderTheInvariant : Prop :=
  ∀ s : State, Inv s → ∃ t, step s = .next t ∧ Inv t

/-- Where the model's faults stand (log 6; no rule of the spec gives such a state an effect, and no state of
the invariant is one): a RUN step of a command that has none (R92), a walk or a root at entry 511, which NODE does
not have (R47), and a root that is its own child. -/
def Obligations.StopsOutsideTheInvariant : Prop :=
  (∀ s : State, s.busy = true → s.ph = .run → (∀ i, decode s.cur = .ok i → streaming i = false) →
    engineStep s = .fault .noRunStep) ∧
  (∀ s : State, s.ph = .run → s.decShN ≠ 0 → s.decWalk = 511 → exec .decData s = .fault .noNode) ∧
  (∀ s : State, s.treeValid = true → s.root = 511 → exec .codeGen s = .fault .noNode) ∧
  (∀ (s : State) (e : NodeEntry), s.treeValid = true → nodeAt s s.root = some e → e.leaf = false →
    e.left = s.root → exec .codeGen s = .fault .noPath) ∧
  (∀ s : State, Inv s → s.root ≠ 511 ∨ s.treeValid = false)

/-- R55 point 6: whatever event comes, DEC.rem rises only in an engine step of DEC_INIT; so a step from a state
whose CUR spells no DEC_INIT (or no command at all) leaves it no larger. -/
def Obligations.DecRemOnlyDecreases : Prop :=
  (∀ (s t : State) (e : Event), ControlInv s → applyEvent e s = .next t → s.decRem.toNat < t.decRem.toNat →
    e = .engine ∧ s.busy = true ∧ s.ph = .start ∧ ∃ p, decode s.cur = .ok (.decInit p)) ∧
  (∀ s t : State, ControlInv s → (∀ p, decode s.cur ≠ .ok (.decInit p)) → step s = .next t →
    t.decRem.toNat ≤ s.decRem.toNat)

/-- R175: no engine step leaves a stale tree or stale codes valid: where TREE_VALID = 1 after it the table
is unchanged, and where CODES_VALID = 1 after it the tree is. -/
def Obligations.NoStaleTreeOrCodes : Prop :=
  ∀ s t : State, ControlInv s → engineStep s = .next t →
    (t.treeValid = true → t.ft = s.ft) ∧
    (t.codesValid = true → t.node = s.node ∧ t.root = s.root ∧ t.nodeCount = s.nodeCount)

/-- R170, R171: the engine only takes bytes from the front of IN, and, FIFO_CLR aside, only adds bytes at
the back of OUT. -/
def Obligations.EngineTakesFromInAndAddsToOut : Prop :=
  ∀ s t : State, engineStep s = .next t →
    t.inq <:+ s.inq ∧ ((∀ i o, decode s.cur ≠ .ok (.fifoClr i o)) → s.outq <+: t.outq)

/-! ### Container and firmware (spec/45_container.md) -/

/-- R135, R143, R145: what `serialize` writes, `deserialize` accepts, and the entries and the payload are
read back exactly. -/
def Obligations.ContainerRoundTrip : Prop :=
  ∀ (pad : Nat) (entries : List (Byte × Word)) (payload : List Byte),
    pad ≤ 7 → 1 ≤ entries.length → entries.length ≤ 256 → 1 ≤ payload.length → payload.length ≤ 2 ^ 32 - 1 →
    let c := serialize pad entries.length entries payload
    c.length = 8 + 5 * entries.length + payload.length ∧
    deserialize c = .ok { pad := pad, n := entries.length, p := payload.length } ∧
    (∀ (k : Nat) (h : k < entries.length), entryAt c k = entries[k]) ∧
    payloadOf c entries.length = payload

/-- R145, R139: exactly which buffers `deserialize` accepts, exactly which it reports as `InputTooLarge`, and
that it reports every other as `CorruptContainer`; a call on a buffer it rejects reports that condition, makes no
access and leaves the HPU as it is, and so does `compress` of an empty input (R142). -/
def Obligations.DeserializeChecks : Prop :=
  (∀ (c : List Byte) (l : Layout), deserialize c = .ok l ↔
    8 ≤ c.length ∧ l.pad = memRead c 0 4 ∧ l.n = memRead c 4 4 ∧ l.pad ≤ 7 ∧ 1 ≤ l.n ∧ l.n ≤ 256 ∧
    c.length = 8 + 5 * l.n + l.p ∧ 1 ≤ l.p ∧ l.p ≤ 2 ^ 32 - 1) ∧
  (∀ c : List Byte, deserialize c = .error .inputTooLarge ↔
    8 ≤ c.length ∧ memRead c 0 4 ≤ 7 ∧ 1 ≤ memRead c 4 4 ∧ memRead c 4 4 ≤ 256 ∧
    2 ^ 32 - 1 < c.length - 8 - 5 * memRead c 4 4) ∧
  (∀ (c : List Byte) (e : Condition), deserialize c = .error e → e = .corruptContainer ∨ e = .inputTooLarge) ∧
  (∀ (c : List Byte) (e : Condition) (fuel : Nat) (d : Driver), deserialize c = .error e →
    runFw (decompress fuel c) d = (.error (.report e), d)) ∧
  (∀ (fuel : Nat) (d : Driver), runFw (compress fuel []) d = (.error (.report .emptyInput), d))

/-- R140: the firmware's `WAIT` with its check (`waitOk`) succeeds only when the command has ended with DONE = 1 and
no error is pending, whatever engine steps and resets fell between its accesses. R138, R140: `compress` and
`decompress` return an output only with IN_OVF = 0, REJ = 0 and DONE = 1 at their last STATUS read (that DONE = 0
there is a condition: log 17). R103: a script's run has ended only in a quiescent state, and one that ends with
BUSY = 1 has not finished; R87: exactly an ill-formed script is refused. -/
def Obligations.CallsGoOnAfterDoneAndScriptsEndQuiescent : Prop :=
  (∀ (fuel : Nat) (d d' : Driver), runFw (waitOk fuel) d = (.ok (), d') →
    endedInSuccess d'.hpu = true ∧ d'.hpu.err = false) ∧
  (∀ d d' : Driver, runFw endOfSequence d = (.ok (), d') →
    d'.hpu.inOvf = false ∧ d'.hpu.rej = false ∧ d'.hpu.done = true) ∧
  (∀ (fuel : Nat) (input c : List Byte) (d d' : Driver), runFw (compress fuel input) d = (.ok c, d') →
    d'.hpu.inOvf = false ∧ d'.hpu.rej = false ∧ d'.hpu.done = true) ∧
  (∀ (fuel : Nat) (c out : List Byte) (d d' : Driver), runFw (decompress fuel c) d = (.ok out, d') →
    d'.hpu.inOvf = false ∧ d'.hpu.rej = false ∧ d'.hpu.done = true) ∧
  (∀ (fuel : Nat) (ls : List ScriptLine) (d d' : Driver),
    (runScript fuel ls d = .finished d' → d'.hpu.busy = false) ∧
    (runScript fuel ls d = .unfinished d' → d'.hpu.busy = true) ∧
    (runScript fuel ls d = .illFormed ↔ Script.wellFormed ls = false))
end

