-- ==== Sys2Proof/Laws/Firmware.lean ====
section
/-! SUPPORT. What a host computation does when it is run (spec/45_container.md R140): one lemma for each way to
build one, so that a proof about firmware or a script never unfolds the monad. -/

namespace Sys2Proof.Machine

@[simp] theorem runFw_pure {α : Type} (a : α) (d : Driver) : runFw (pure a) d = (.ok a, d) := rfl

@[simp] theorem runFw_throw {α : Type} (e : FwStop) (d : Driver) : runFw (throw e : Fw α) d = (.error e, d) := rfl

/-- The second computation starts where the first ends; a stop of the first is the stop of both, and the
driver stays where it was met. -/
theorem runFw_bind {α β : Type} (m : Fw α) (f : α → Fw β) (d : Driver) :
    runFw (m >>= f) d = match runFw m d with
      | (.ok a, d') => runFw (f a) d'
      | (.error e, d') => (.error e, d') := by
  simp only [runFw, ExceptT.run_bind, StateT.run_bind, Id.run_bind]
  generalize Id.run (StateT.run (ExceptT.run m) d) = r
  obtain ⟨a | a, d'⟩ := r <;> rfl

/-- A pair of computations that ends with a value: both end with one. -/
theorem runFw_bind_ok {α β : Type} {m : Fw α} {f : α → Fw β} {d d' : Driver} {b : β}
    (h : runFw (m >>= f) d = (.ok b, d')) : ∃ a d₁, runFw m d = (.ok a, d₁) ∧ runFw (f a) d₁ = (.ok b, d') := by
  rw [runFw_bind] at h
  split at h
  · next a d₁ hm => exact ⟨a, d₁, hm, h⟩
  · cases h

/-- What happens between two accesses: the next list of moves, or one engine step (log 13). -/
theorem runFw_betweenAccesses (d : Driver) :
    runFw betweenAccesses d =
      ((applyMoves (d.sched.headD [.engine]) d.hpu).1,
       { hpu := (applyMoves (d.sched.headD [.engine]) d.hpu).2, sched := d.sched.tail }) := rfl

/-- A write that is reached is performed, after the moves before it (R86). -/
theorem runFw_wr_cases {r : Reg} {v : Word} {d d' : Driver} {x : Unit} (h : runFw (wr r v) d = (.ok x, d')) :
    ∃ s, applyMoves (d.sched.headD [.engine]) d.hpu = (.ok (), s) ∧
      d' = { hpu := busWrite (regOffset r) v s, sched := d.sched.tail } := by
  rw [wr, runFw_bind, runFw_betweenAccesses] at h
  generalize applyMoves (d.sched.headD [.engine]) d.hpu = m at h
  obtain ⟨e | u, s⟩ := m
  · cases h
  · cases h; exact ⟨s, rfl, rfl⟩

/-- A read that is reached returns the register's value in the state after the moves before it; the state then
has the read's effect and the value in `reads` (R86). -/
theorem runFw_rd_cases {r : Reg} {d d' : Driver} {v : Word} (h : runFw (rd r) d = (.ok v, d')) :
    ∃ s, applyMoves (d.sched.headD [.engine]) d.hpu = (.ok (), s) ∧ v = busReadValue (regOffset r) s ∧
      d' = { hpu := { busReadState (regOffset r) s with reads := s.reads ++ [v] }, sched := d.sched.tail } := by
  rw [rd, runFw_bind, runFw_betweenAccesses] at h
  generalize applyMoves (d.sched.headD [.engine]) d.hpu = m at h
  obtain ⟨e | u, s⟩ := m
  · cases h
  · cases h; exact ⟨s, rfl, rfl, rfl⟩

end Sys2Proof.Machine
end

