-- ==== Sys2Proof/Laws/State.lean ====
section
/-! SUPPORT. What each named update does to each field of State: one lemma per field per update, true by rfl, so that
no later proof unfolds a record update. -/

namespace Sys2Proof.Machine

/-! ### `complete` (R93) -/

section
variable (s : State)

@[simp] theorem complete_cfg : (complete s).cfg = s.cfg := rfl
@[simp] theorem complete_doneIe : (complete s).doneIe = s.doneIe := rfl
@[simp] theorem complete_errIe : (complete s).errIe = s.errIe := rfl
@[simp] theorem complete_busy : (complete s).busy = false := rfl
@[simp] theorem complete_done : (complete s).done = true := rfl
@[simp] theorem complete_err : (complete s).err = s.err := rfl
@[simp] theorem complete_inOvf : (complete s).inOvf = s.inOvf := rfl
@[simp] theorem complete_rej : (complete s).rej = s.rej := rfl
@[simp] theorem complete_arg : (complete s).arg = s.arg := rfl
@[simp] theorem complete_errCode : (complete s).errCode = s.errCode := rfl
@[simp] theorem complete_errInfo : (complete s).errInfo = s.errInfo := rfl
@[simp] theorem complete_result0 : (complete s).result0 = s.result0 := rfl
@[simp] theorem complete_result1 : (complete s).result1 = s.result1 := rfl
@[simp] theorem complete_result2 : (complete s).result2 = s.result2 := rfl
@[simp] theorem complete_result3 : (complete s).result3 = s.result3 := rfl
@[simp] theorem complete_inq : (complete s).inq = s.inq := rfl
@[simp] theorem complete_outq : (complete s).outq = s.outq := rfl
@[simp] theorem complete_ft : (complete s).ft = s.ft := rfl
@[simp] theorem complete_node : (complete s).node = s.node := rfl
@[simp] theorem complete_treeValid : (complete s).treeValid = s.treeValid := rfl
@[simp] theorem complete_root : (complete s).root = s.root := rfl
@[simp] theorem complete_nodeCount : (complete s).nodeCount = s.nodeCount := rfl
@[simp] theorem complete_code : (complete s).code = s.code := rfl
@[simp] theorem complete_codesValid : (complete s).codesValid = s.codesValid := rfl
@[simp] theorem complete_mode : (complete s).mode = s.mode := rfl
@[simp] theorem complete_encAcc : (complete s).encAcc = s.encAcc := rfl
@[simp] theorem complete_encAccN : (complete s).encAccN = s.encAccN := rfl
@[simp] theorem complete_encSr : (complete s).encSr = s.encSr := rfl
@[simp] theorem complete_encSrN : (complete s).encSrN = s.encSrN := rfl
@[simp] theorem complete_bitcnt : (complete s).bitcnt = s.bitcnt := rfl
@[simp] theorem complete_pad : (complete s).pad = s.pad := rfl
@[simp] theorem complete_decRem : (complete s).decRem = s.decRem := rfl
@[simp] theorem complete_decWalk : (complete s).decWalk = s.decWalk := rfl
@[simp] theorem complete_decSh : (complete s).decSh = s.decSh := rfl
@[simp] theorem complete_decShN : (complete s).decShN = s.decShN := rfl
@[simp] theorem complete_symcnt : (complete s).symcnt = s.symcnt := rfl
@[simp] theorem complete_cur : (complete s).cur = s.cur := rfl
@[simp] theorem complete_carg : (complete s).carg = s.carg := rfl
@[simp] theorem complete_ph : (complete s).ph = .start := rfl
@[simp] theorem complete_cnt : (complete s).cnt = s.cnt := rfl
@[simp] theorem complete_events : (complete s).events = s.events := rfl
@[simp] theorem complete_reads : (complete s).reads = s.reads := rfl

end

/-! ### `raiseError` (R94) -/

section
variable (c : ErrCode) (info : Word) (s : State)

@[simp] theorem raiseError_cfg : (raiseError c info s).cfg = s.cfg := rfl
@[simp] theorem raiseError_doneIe : (raiseError c info s).doneIe = s.doneIe := rfl
@[simp] theorem raiseError_errIe : (raiseError c info s).errIe = s.errIe := rfl
@[simp] theorem raiseError_busy : (raiseError c info s).busy = false := rfl
@[simp] theorem raiseError_done : (raiseError c info s).done = s.done := rfl
@[simp] theorem raiseError_err : (raiseError c info s).err = true := rfl
@[simp] theorem raiseError_inOvf : (raiseError c info s).inOvf = s.inOvf := rfl
@[simp] theorem raiseError_rej : (raiseError c info s).rej = s.rej := rfl
@[simp] theorem raiseError_arg : (raiseError c info s).arg = s.arg := rfl
@[simp] theorem raiseError_errCode : (raiseError c info s).errCode = errCodeBits c := rfl
@[simp] theorem raiseError_errInfo : (raiseError c info s).errInfo = info := rfl
@[simp] theorem raiseError_result0 : (raiseError c info s).result0 = s.result0 := rfl
@[simp] theorem raiseError_result1 : (raiseError c info s).result1 = s.result1 := rfl
@[simp] theorem raiseError_result2 : (raiseError c info s).result2 = s.result2 := rfl
@[simp] theorem raiseError_result3 : (raiseError c info s).result3 = s.result3 := rfl
@[simp] theorem raiseError_inq : (raiseError c info s).inq = s.inq := rfl
@[simp] theorem raiseError_outq : (raiseError c info s).outq = s.outq := rfl
@[simp] theorem raiseError_ft : (raiseError c info s).ft = s.ft := rfl
@[simp] theorem raiseError_node : (raiseError c info s).node = s.node := rfl
@[simp] theorem raiseError_treeValid : (raiseError c info s).treeValid = s.treeValid := rfl
@[simp] theorem raiseError_root : (raiseError c info s).root = s.root := rfl
@[simp] theorem raiseError_nodeCount : (raiseError c info s).nodeCount = s.nodeCount := rfl
@[simp] theorem raiseError_code : (raiseError c info s).code = s.code := rfl
@[simp] theorem raiseError_codesValid : (raiseError c info s).codesValid = s.codesValid := rfl
@[simp] theorem raiseError_mode : (raiseError c info s).mode = s.mode := rfl
@[simp] theorem raiseError_encAcc : (raiseError c info s).encAcc = s.encAcc := rfl
@[simp] theorem raiseError_encAccN : (raiseError c info s).encAccN = s.encAccN := rfl
@[simp] theorem raiseError_encSr : (raiseError c info s).encSr = s.encSr := rfl
@[simp] theorem raiseError_encSrN : (raiseError c info s).encSrN = s.encSrN := rfl
@[simp] theorem raiseError_bitcnt : (raiseError c info s).bitcnt = s.bitcnt := rfl
@[simp] theorem raiseError_pad : (raiseError c info s).pad = s.pad := rfl
@[simp] theorem raiseError_decRem : (raiseError c info s).decRem = s.decRem := rfl
@[simp] theorem raiseError_decWalk : (raiseError c info s).decWalk = s.decWalk := rfl
@[simp] theorem raiseError_decSh : (raiseError c info s).decSh = s.decSh := rfl
@[simp] theorem raiseError_decShN : (raiseError c info s).decShN = s.decShN := rfl
@[simp] theorem raiseError_symcnt : (raiseError c info s).symcnt = s.symcnt := rfl
@[simp] theorem raiseError_cur : (raiseError c info s).cur = s.cur := rfl
@[simp] theorem raiseError_carg : (raiseError c info s).carg = s.carg := rfl
@[simp] theorem raiseError_ph : (raiseError c info s).ph = .start := rfl
@[simp] theorem raiseError_cnt : (raiseError c info s).cnt = s.cnt := rfl
@[simp] theorem raiseError_events : (raiseError c info s).events = s.events := rfl
@[simp] theorem raiseError_reads : (raiseError c info s).reads = s.reads := rfl

end

/-! ### `acknowledgeError` (R152) -/

section
variable (s : State)

@[simp] theorem acknowledgeError_cfg : (acknowledgeError s).cfg = s.cfg := rfl
@[simp] theorem acknowledgeError_doneIe : (acknowledgeError s).doneIe = s.doneIe := rfl
@[simp] theorem acknowledgeError_errIe : (acknowledgeError s).errIe = s.errIe := rfl
@[simp] theorem acknowledgeError_busy : (acknowledgeError s).busy = s.busy := rfl
@[simp] theorem acknowledgeError_done : (acknowledgeError s).done = s.done := rfl
@[simp] theorem acknowledgeError_err : (acknowledgeError s).err = false := rfl
@[simp] theorem acknowledgeError_inOvf : (acknowledgeError s).inOvf = s.inOvf := rfl
@[simp] theorem acknowledgeError_rej : (acknowledgeError s).rej = s.rej := rfl
@[simp] theorem acknowledgeError_arg : (acknowledgeError s).arg = s.arg := rfl
@[simp] theorem acknowledgeError_errCode : (acknowledgeError s).errCode = 0 := rfl
@[simp] theorem acknowledgeError_errInfo : (acknowledgeError s).errInfo = 0 := rfl
@[simp] theorem acknowledgeError_result0 : (acknowledgeError s).result0 = s.result0 := rfl
@[simp] theorem acknowledgeError_result1 : (acknowledgeError s).result1 = s.result1 := rfl
@[simp] theorem acknowledgeError_result2 : (acknowledgeError s).result2 = s.result2 := rfl
@[simp] theorem acknowledgeError_result3 : (acknowledgeError s).result3 = s.result3 := rfl
@[simp] theorem acknowledgeError_inq : (acknowledgeError s).inq = s.inq := rfl
@[simp] theorem acknowledgeError_outq : (acknowledgeError s).outq = s.outq := rfl
@[simp] theorem acknowledgeError_ft : (acknowledgeError s).ft = s.ft := rfl
@[simp] theorem acknowledgeError_node : (acknowledgeError s).node = s.node := rfl
@[simp] theorem acknowledgeError_treeValid : (acknowledgeError s).treeValid = s.treeValid := rfl
@[simp] theorem acknowledgeError_root : (acknowledgeError s).root = s.root := rfl
@[simp] theorem acknowledgeError_nodeCount : (acknowledgeError s).nodeCount = s.nodeCount := rfl
@[simp] theorem acknowledgeError_code : (acknowledgeError s).code = s.code := rfl
@[simp] theorem acknowledgeError_codesValid : (acknowledgeError s).codesValid = s.codesValid := rfl
@[simp] theorem acknowledgeError_mode : (acknowledgeError s).mode = s.mode := rfl
@[simp] theorem acknowledgeError_encAcc : (acknowledgeError s).encAcc = s.encAcc := rfl
@[simp] theorem acknowledgeError_encAccN : (acknowledgeError s).encAccN = s.encAccN := rfl
@[simp] theorem acknowledgeError_encSr : (acknowledgeError s).encSr = s.encSr := rfl
@[simp] theorem acknowledgeError_encSrN : (acknowledgeError s).encSrN = s.encSrN := rfl
@[simp] theorem acknowledgeError_bitcnt : (acknowledgeError s).bitcnt = s.bitcnt := rfl
@[simp] theorem acknowledgeError_pad : (acknowledgeError s).pad = s.pad := rfl
@[simp] theorem acknowledgeError_decRem : (acknowledgeError s).decRem = s.decRem := rfl
@[simp] theorem acknowledgeError_decWalk : (acknowledgeError s).decWalk = s.decWalk := rfl
@[simp] theorem acknowledgeError_decSh : (acknowledgeError s).decSh = s.decSh := rfl
@[simp] theorem acknowledgeError_decShN : (acknowledgeError s).decShN = s.decShN := rfl
@[simp] theorem acknowledgeError_symcnt : (acknowledgeError s).symcnt = s.symcnt := rfl
@[simp] theorem acknowledgeError_cur : (acknowledgeError s).cur = s.cur := rfl
@[simp] theorem acknowledgeError_carg : (acknowledgeError s).carg = s.carg := rfl
@[simp] theorem acknowledgeError_ph : (acknowledgeError s).ph = s.ph := rfl
@[simp] theorem acknowledgeError_cnt : (acknowledgeError s).cnt = s.cnt := rfl
@[simp] theorem acknowledgeError_events : (acknowledgeError s).events = s.events := rfl
@[simp] theorem acknowledgeError_reads : (acknowledgeError s).reads = s.reads := rfl

end

/-! ### `invalidate` (R97) -/

section
variable (s : State)

@[simp] theorem invalidate_cfg : (invalidate s).cfg = s.cfg := rfl
@[simp] theorem invalidate_doneIe : (invalidate s).doneIe = s.doneIe := rfl
@[simp] theorem invalidate_errIe : (invalidate s).errIe = s.errIe := rfl
@[simp] theorem invalidate_busy : (invalidate s).busy = s.busy := rfl
@[simp] theorem invalidate_done : (invalidate s).done = s.done := rfl
@[simp] theorem invalidate_err : (invalidate s).err = s.err := rfl
@[simp] theorem invalidate_inOvf : (invalidate s).inOvf = s.inOvf := rfl
@[simp] theorem invalidate_rej : (invalidate s).rej = s.rej := rfl
@[simp] theorem invalidate_arg : (invalidate s).arg = s.arg := rfl
@[simp] theorem invalidate_errCode : (invalidate s).errCode = s.errCode := rfl
@[simp] theorem invalidate_errInfo : (invalidate s).errInfo = s.errInfo := rfl
@[simp] theorem invalidate_result0 : (invalidate s).result0 = s.result0 := rfl
@[simp] theorem invalidate_result1 : (invalidate s).result1 = s.result1 := rfl
@[simp] theorem invalidate_result2 : (invalidate s).result2 = s.result2 := rfl
@[simp] theorem invalidate_result3 : (invalidate s).result3 = s.result3 := rfl
@[simp] theorem invalidate_inq : (invalidate s).inq = s.inq := rfl
@[simp] theorem invalidate_outq : (invalidate s).outq = s.outq := rfl
@[simp] theorem invalidate_ft : (invalidate s).ft = s.ft := rfl
@[simp] theorem invalidate_node : (invalidate s).node = s.node := rfl
@[simp] theorem invalidate_treeValid : (invalidate s).treeValid = false := rfl
@[simp] theorem invalidate_root : (invalidate s).root = s.root := rfl
@[simp] theorem invalidate_nodeCount : (invalidate s).nodeCount = s.nodeCount := rfl
@[simp] theorem invalidate_code : (invalidate s).code = s.code := rfl
@[simp] theorem invalidate_codesValid : (invalidate s).codesValid = false := rfl
@[simp] theorem invalidate_mode : (invalidate s).mode = .idle := rfl
@[simp] theorem invalidate_encAcc : (invalidate s).encAcc = s.encAcc := rfl
@[simp] theorem invalidate_encAccN : (invalidate s).encAccN = s.encAccN := rfl
@[simp] theorem invalidate_encSr : (invalidate s).encSr = s.encSr := rfl
@[simp] theorem invalidate_encSrN : (invalidate s).encSrN = s.encSrN := rfl
@[simp] theorem invalidate_bitcnt : (invalidate s).bitcnt = s.bitcnt := rfl
@[simp] theorem invalidate_pad : (invalidate s).pad = s.pad := rfl
@[simp] theorem invalidate_decRem : (invalidate s).decRem = s.decRem := rfl
@[simp] theorem invalidate_decWalk : (invalidate s).decWalk = s.decWalk := rfl
@[simp] theorem invalidate_decSh : (invalidate s).decSh = s.decSh := rfl
@[simp] theorem invalidate_decShN : (invalidate s).decShN = s.decShN := rfl
@[simp] theorem invalidate_symcnt : (invalidate s).symcnt = s.symcnt := rfl
@[simp] theorem invalidate_cur : (invalidate s).cur = s.cur := rfl
@[simp] theorem invalidate_carg : (invalidate s).carg = s.carg := rfl
@[simp] theorem invalidate_ph : (invalidate s).ph = s.ph := rfl
@[simp] theorem invalidate_cnt : (invalidate s).cnt = s.cnt := rfl
@[simp] theorem invalidate_events : (invalidate s).events = s.events := rfl
@[simp] theorem invalidate_reads : (invalidate s).reads = s.reads := rfl

end

/-! ### `acceptCommand` (R88) -/

section
variable (v : Word) (s : State)

@[simp] theorem acceptCommand_cfg : (acceptCommand v s).cfg = s.cfg := rfl
@[simp] theorem acceptCommand_doneIe : (acceptCommand v s).doneIe = s.doneIe := rfl
@[simp] theorem acceptCommand_errIe : (acceptCommand v s).errIe = s.errIe := rfl
@[simp] theorem acceptCommand_busy : (acceptCommand v s).busy = true := rfl
@[simp] theorem acceptCommand_done : (acceptCommand v s).done = false := rfl
@[simp] theorem acceptCommand_err : (acceptCommand v s).err = s.err := rfl
@[simp] theorem acceptCommand_inOvf : (acceptCommand v s).inOvf = s.inOvf := rfl
@[simp] theorem acceptCommand_rej : (acceptCommand v s).rej = s.rej := rfl
@[simp] theorem acceptCommand_arg : (acceptCommand v s).arg = s.arg := rfl
@[simp] theorem acceptCommand_errCode : (acceptCommand v s).errCode = s.errCode := rfl
@[simp] theorem acceptCommand_errInfo : (acceptCommand v s).errInfo = s.errInfo := rfl
@[simp] theorem acceptCommand_result0 : (acceptCommand v s).result0 = s.result0 := rfl
@[simp] theorem acceptCommand_result1 : (acceptCommand v s).result1 = s.result1 := rfl
@[simp] theorem acceptCommand_result2 : (acceptCommand v s).result2 = s.result2 := rfl
@[simp] theorem acceptCommand_result3 : (acceptCommand v s).result3 = s.result3 := rfl
@[simp] theorem acceptCommand_inq : (acceptCommand v s).inq = s.inq := rfl
@[simp] theorem acceptCommand_outq : (acceptCommand v s).outq = s.outq := rfl
@[simp] theorem acceptCommand_ft : (acceptCommand v s).ft = s.ft := rfl
@[simp] theorem acceptCommand_node : (acceptCommand v s).node = s.node := rfl
@[simp] theorem acceptCommand_treeValid : (acceptCommand v s).treeValid = s.treeValid := rfl
@[simp] theorem acceptCommand_root : (acceptCommand v s).root = s.root := rfl
@[simp] theorem acceptCommand_nodeCount : (acceptCommand v s).nodeCount = s.nodeCount := rfl
@[simp] theorem acceptCommand_code : (acceptCommand v s).code = s.code := rfl
@[simp] theorem acceptCommand_codesValid : (acceptCommand v s).codesValid = s.codesValid := rfl
@[simp] theorem acceptCommand_mode : (acceptCommand v s).mode = s.mode := rfl
@[simp] theorem acceptCommand_encAcc : (acceptCommand v s).encAcc = s.encAcc := rfl
@[simp] theorem acceptCommand_encAccN : (acceptCommand v s).encAccN = s.encAccN := rfl
@[simp] theorem acceptCommand_encSr : (acceptCommand v s).encSr = s.encSr := rfl
@[simp] theorem acceptCommand_encSrN : (acceptCommand v s).encSrN = s.encSrN := rfl
@[simp] theorem acceptCommand_bitcnt : (acceptCommand v s).bitcnt = s.bitcnt := rfl
@[simp] theorem acceptCommand_pad : (acceptCommand v s).pad = s.pad := rfl
@[simp] theorem acceptCommand_decRem : (acceptCommand v s).decRem = s.decRem := rfl
@[simp] theorem acceptCommand_decWalk : (acceptCommand v s).decWalk = s.decWalk := rfl
@[simp] theorem acceptCommand_decSh : (acceptCommand v s).decSh = s.decSh := rfl
@[simp] theorem acceptCommand_decShN : (acceptCommand v s).decShN = s.decShN := rfl
@[simp] theorem acceptCommand_symcnt : (acceptCommand v s).symcnt = s.symcnt := rfl
@[simp] theorem acceptCommand_cur : (acceptCommand v s).cur = v := rfl
@[simp] theorem acceptCommand_carg : (acceptCommand v s).carg = s.arg := rfl
@[simp] theorem acceptCommand_ph : (acceptCommand v s).ph = .start := rfl
@[simp] theorem acceptCommand_cnt : (acceptCommand v s).cnt = s.cnt := rfl
@[simp] theorem acceptCommand_events : (acceptCommand v s).events = s.events := rfl
@[simp] theorem acceptCommand_reads : (acceptCommand v s).reads = s.reads := rfl

end

/-! ### `startStream` (R91) -/

section
variable (n : Word) (s : State)

@[simp] theorem startStream_cfg : (startStream n s).cfg = s.cfg := rfl
@[simp] theorem startStream_doneIe : (startStream n s).doneIe = s.doneIe := rfl
@[simp] theorem startStream_errIe : (startStream n s).errIe = s.errIe := rfl
@[simp] theorem startStream_busy : (startStream n s).busy = s.busy := rfl
@[simp] theorem startStream_done : (startStream n s).done = s.done := rfl
@[simp] theorem startStream_err : (startStream n s).err = s.err := rfl
@[simp] theorem startStream_inOvf : (startStream n s).inOvf = s.inOvf := rfl
@[simp] theorem startStream_rej : (startStream n s).rej = s.rej := rfl
@[simp] theorem startStream_arg : (startStream n s).arg = s.arg := rfl
@[simp] theorem startStream_errCode : (startStream n s).errCode = s.errCode := rfl
@[simp] theorem startStream_errInfo : (startStream n s).errInfo = s.errInfo := rfl
@[simp] theorem startStream_result0 : (startStream n s).result0 = s.result0 := rfl
@[simp] theorem startStream_result1 : (startStream n s).result1 = s.result1 := rfl
@[simp] theorem startStream_result2 : (startStream n s).result2 = s.result2 := rfl
@[simp] theorem startStream_result3 : (startStream n s).result3 = s.result3 := rfl
@[simp] theorem startStream_inq : (startStream n s).inq = s.inq := rfl
@[simp] theorem startStream_outq : (startStream n s).outq = s.outq := rfl
@[simp] theorem startStream_ft : (startStream n s).ft = s.ft := rfl
@[simp] theorem startStream_node : (startStream n s).node = s.node := rfl
@[simp] theorem startStream_treeValid : (startStream n s).treeValid = s.treeValid := rfl
@[simp] theorem startStream_root : (startStream n s).root = s.root := rfl
@[simp] theorem startStream_nodeCount : (startStream n s).nodeCount = s.nodeCount := rfl
@[simp] theorem startStream_code : (startStream n s).code = s.code := rfl
@[simp] theorem startStream_codesValid : (startStream n s).codesValid = s.codesValid := rfl
@[simp] theorem startStream_mode : (startStream n s).mode = s.mode := rfl
@[simp] theorem startStream_encAcc : (startStream n s).encAcc = s.encAcc := rfl
@[simp] theorem startStream_encAccN : (startStream n s).encAccN = s.encAccN := rfl
@[simp] theorem startStream_encSr : (startStream n s).encSr = s.encSr := rfl
@[simp] theorem startStream_encSrN : (startStream n s).encSrN = s.encSrN := rfl
@[simp] theorem startStream_bitcnt : (startStream n s).bitcnt = s.bitcnt := rfl
@[simp] theorem startStream_pad : (startStream n s).pad = s.pad := rfl
@[simp] theorem startStream_decRem : (startStream n s).decRem = s.decRem := rfl
@[simp] theorem startStream_decWalk : (startStream n s).decWalk = s.decWalk := rfl
@[simp] theorem startStream_decSh : (startStream n s).decSh = s.decSh := rfl
@[simp] theorem startStream_decShN : (startStream n s).decShN = s.decShN := rfl
@[simp] theorem startStream_symcnt : (startStream n s).symcnt = s.symcnt := rfl
@[simp] theorem startStream_cur : (startStream n s).cur = s.cur := rfl
@[simp] theorem startStream_carg : (startStream n s).carg = s.carg := rfl
@[simp] theorem startStream_ph : (startStream n s).ph = .run := rfl
@[simp] theorem startStream_cnt : (startStream n s).cnt = n := rfl
@[simp] theorem startStream_events : (startStream n s).events = s.events := rfl
@[simp] theorem startStream_reads : (startStream n s).reads = s.reads := rfl

end

/-! ### `pushOut` (R18) -/

section
variable (b : Byte) (s : State)

@[simp] theorem pushOut_cfg : (pushOut b s).cfg = s.cfg := rfl
@[simp] theorem pushOut_doneIe : (pushOut b s).doneIe = s.doneIe := rfl
@[simp] theorem pushOut_errIe : (pushOut b s).errIe = s.errIe := rfl
@[simp] theorem pushOut_busy : (pushOut b s).busy = s.busy := rfl
@[simp] theorem pushOut_done : (pushOut b s).done = s.done := rfl
@[simp] theorem pushOut_err : (pushOut b s).err = s.err := rfl
@[simp] theorem pushOut_inOvf : (pushOut b s).inOvf = s.inOvf := rfl
@[simp] theorem pushOut_rej : (pushOut b s).rej = s.rej := rfl
@[simp] theorem pushOut_arg : (pushOut b s).arg = s.arg := rfl
@[simp] theorem pushOut_errCode : (pushOut b s).errCode = s.errCode := rfl
@[simp] theorem pushOut_errInfo : (pushOut b s).errInfo = s.errInfo := rfl
@[simp] theorem pushOut_result0 : (pushOut b s).result0 = s.result0 := rfl
@[simp] theorem pushOut_result1 : (pushOut b s).result1 = s.result1 := rfl
@[simp] theorem pushOut_result2 : (pushOut b s).result2 = s.result2 := rfl
@[simp] theorem pushOut_result3 : (pushOut b s).result3 = s.result3 := rfl
@[simp] theorem pushOut_inq : (pushOut b s).inq = s.inq := rfl
@[simp] theorem pushOut_outq : (pushOut b s).outq = s.outq ++ [b] := rfl
@[simp] theorem pushOut_ft : (pushOut b s).ft = s.ft := rfl
@[simp] theorem pushOut_node : (pushOut b s).node = s.node := rfl
@[simp] theorem pushOut_treeValid : (pushOut b s).treeValid = s.treeValid := rfl
@[simp] theorem pushOut_root : (pushOut b s).root = s.root := rfl
@[simp] theorem pushOut_nodeCount : (pushOut b s).nodeCount = s.nodeCount := rfl
@[simp] theorem pushOut_code : (pushOut b s).code = s.code := rfl
@[simp] theorem pushOut_codesValid : (pushOut b s).codesValid = s.codesValid := rfl
@[simp] theorem pushOut_mode : (pushOut b s).mode = s.mode := rfl
@[simp] theorem pushOut_encAcc : (pushOut b s).encAcc = s.encAcc := rfl
@[simp] theorem pushOut_encAccN : (pushOut b s).encAccN = s.encAccN := rfl
@[simp] theorem pushOut_encSr : (pushOut b s).encSr = s.encSr := rfl
@[simp] theorem pushOut_encSrN : (pushOut b s).encSrN = s.encSrN := rfl
@[simp] theorem pushOut_bitcnt : (pushOut b s).bitcnt = s.bitcnt := rfl
@[simp] theorem pushOut_pad : (pushOut b s).pad = s.pad := rfl
@[simp] theorem pushOut_decRem : (pushOut b s).decRem = s.decRem := rfl
@[simp] theorem pushOut_decWalk : (pushOut b s).decWalk = s.decWalk := rfl
@[simp] theorem pushOut_decSh : (pushOut b s).decSh = s.decSh := rfl
@[simp] theorem pushOut_decShN : (pushOut b s).decShN = s.decShN := rfl
@[simp] theorem pushOut_symcnt : (pushOut b s).symcnt = s.symcnt := rfl
@[simp] theorem pushOut_cur : (pushOut b s).cur = s.cur := rfl
@[simp] theorem pushOut_carg : (pushOut b s).carg = s.carg := rfl
@[simp] theorem pushOut_ph : (pushOut b s).ph = s.ph := rfl
@[simp] theorem pushOut_cnt : (pushOut b s).cnt = s.cnt := rfl
@[simp] theorem pushOut_events : (pushOut b s).events = s.events := rfl
@[simp] theorem pushOut_reads : (pushOut b s).reads = s.reads := rfl

end

/-! ### `ftSet` (R46) -/

section
variable (b : Byte) (e : FtEntry) (s : State)

@[simp] theorem ftSet_cfg : (ftSet b e s).cfg = s.cfg := rfl
@[simp] theorem ftSet_doneIe : (ftSet b e s).doneIe = s.doneIe := rfl
@[simp] theorem ftSet_errIe : (ftSet b e s).errIe = s.errIe := rfl
@[simp] theorem ftSet_busy : (ftSet b e s).busy = s.busy := rfl
@[simp] theorem ftSet_done : (ftSet b e s).done = s.done := rfl
@[simp] theorem ftSet_err : (ftSet b e s).err = s.err := rfl
@[simp] theorem ftSet_inOvf : (ftSet b e s).inOvf = s.inOvf := rfl
@[simp] theorem ftSet_rej : (ftSet b e s).rej = s.rej := rfl
@[simp] theorem ftSet_arg : (ftSet b e s).arg = s.arg := rfl
@[simp] theorem ftSet_errCode : (ftSet b e s).errCode = s.errCode := rfl
@[simp] theorem ftSet_errInfo : (ftSet b e s).errInfo = s.errInfo := rfl
@[simp] theorem ftSet_result0 : (ftSet b e s).result0 = s.result0 := rfl
@[simp] theorem ftSet_result1 : (ftSet b e s).result1 = s.result1 := rfl
@[simp] theorem ftSet_result2 : (ftSet b e s).result2 = s.result2 := rfl
@[simp] theorem ftSet_result3 : (ftSet b e s).result3 = s.result3 := rfl
@[simp] theorem ftSet_inq : (ftSet b e s).inq = s.inq := rfl
@[simp] theorem ftSet_outq : (ftSet b e s).outq = s.outq := rfl
@[simp] theorem ftSet_ft : (ftSet b e s).ft = s.ft.set b.toNat e b.isLt := rfl
@[simp] theorem ftSet_node : (ftSet b e s).node = s.node := rfl
@[simp] theorem ftSet_treeValid : (ftSet b e s).treeValid = s.treeValid := rfl
@[simp] theorem ftSet_root : (ftSet b e s).root = s.root := rfl
@[simp] theorem ftSet_nodeCount : (ftSet b e s).nodeCount = s.nodeCount := rfl
@[simp] theorem ftSet_code : (ftSet b e s).code = s.code := rfl
@[simp] theorem ftSet_codesValid : (ftSet b e s).codesValid = s.codesValid := rfl
@[simp] theorem ftSet_mode : (ftSet b e s).mode = s.mode := rfl
@[simp] theorem ftSet_encAcc : (ftSet b e s).encAcc = s.encAcc := rfl
@[simp] theorem ftSet_encAccN : (ftSet b e s).encAccN = s.encAccN := rfl
@[simp] theorem ftSet_encSr : (ftSet b e s).encSr = s.encSr := rfl
@[simp] theorem ftSet_encSrN : (ftSet b e s).encSrN = s.encSrN := rfl
@[simp] theorem ftSet_bitcnt : (ftSet b e s).bitcnt = s.bitcnt := rfl
@[simp] theorem ftSet_pad : (ftSet b e s).pad = s.pad := rfl
@[simp] theorem ftSet_decRem : (ftSet b e s).decRem = s.decRem := rfl
@[simp] theorem ftSet_decWalk : (ftSet b e s).decWalk = s.decWalk := rfl
@[simp] theorem ftSet_decSh : (ftSet b e s).decSh = s.decSh := rfl
@[simp] theorem ftSet_decShN : (ftSet b e s).decShN = s.decShN := rfl
@[simp] theorem ftSet_symcnt : (ftSet b e s).symcnt = s.symcnt := rfl
@[simp] theorem ftSet_cur : (ftSet b e s).cur = s.cur := rfl
@[simp] theorem ftSet_carg : (ftSet b e s).carg = s.carg := rfl
@[simp] theorem ftSet_ph : (ftSet b e s).ph = s.ph := rfl
@[simp] theorem ftSet_cnt : (ftSet b e s).cnt = s.cnt := rfl
@[simp] theorem ftSet_events : (ftSet b e s).events = s.events := rfl
@[simp] theorem ftSet_reads : (ftSet b e s).reads = s.reads := rfl

end

/-! ### `consumeBit` (R129) -/

section
variable (s : State)

@[simp] theorem consumeBit_cfg : (consumeBit s).cfg = s.cfg := rfl
@[simp] theorem consumeBit_doneIe : (consumeBit s).doneIe = s.doneIe := rfl
@[simp] theorem consumeBit_errIe : (consumeBit s).errIe = s.errIe := rfl
@[simp] theorem consumeBit_busy : (consumeBit s).busy = s.busy := rfl
@[simp] theorem consumeBit_done : (consumeBit s).done = s.done := rfl
@[simp] theorem consumeBit_err : (consumeBit s).err = s.err := rfl
@[simp] theorem consumeBit_inOvf : (consumeBit s).inOvf = s.inOvf := rfl
@[simp] theorem consumeBit_rej : (consumeBit s).rej = s.rej := rfl
@[simp] theorem consumeBit_arg : (consumeBit s).arg = s.arg := rfl
@[simp] theorem consumeBit_errCode : (consumeBit s).errCode = s.errCode := rfl
@[simp] theorem consumeBit_errInfo : (consumeBit s).errInfo = s.errInfo := rfl
@[simp] theorem consumeBit_result0 : (consumeBit s).result0 = s.result0 := rfl
@[simp] theorem consumeBit_result1 : (consumeBit s).result1 = s.result1 := rfl
@[simp] theorem consumeBit_result2 : (consumeBit s).result2 = s.result2 := rfl
@[simp] theorem consumeBit_result3 : (consumeBit s).result3 = s.result3 := rfl
@[simp] theorem consumeBit_inq : (consumeBit s).inq = s.inq := rfl
@[simp] theorem consumeBit_outq : (consumeBit s).outq = s.outq := rfl
@[simp] theorem consumeBit_ft : (consumeBit s).ft = s.ft := rfl
@[simp] theorem consumeBit_node : (consumeBit s).node = s.node := rfl
@[simp] theorem consumeBit_treeValid : (consumeBit s).treeValid = s.treeValid := rfl
@[simp] theorem consumeBit_root : (consumeBit s).root = s.root := rfl
@[simp] theorem consumeBit_nodeCount : (consumeBit s).nodeCount = s.nodeCount := rfl
@[simp] theorem consumeBit_code : (consumeBit s).code = s.code := rfl
@[simp] theorem consumeBit_codesValid : (consumeBit s).codesValid = s.codesValid := rfl
@[simp] theorem consumeBit_mode : (consumeBit s).mode = s.mode := rfl
@[simp] theorem consumeBit_encAcc : (consumeBit s).encAcc = s.encAcc := rfl
@[simp] theorem consumeBit_encAccN : (consumeBit s).encAccN = s.encAccN := rfl
@[simp] theorem consumeBit_encSr : (consumeBit s).encSr = s.encSr := rfl
@[simp] theorem consumeBit_encSrN : (consumeBit s).encSrN = s.encSrN := rfl
@[simp] theorem consumeBit_bitcnt : (consumeBit s).bitcnt = s.bitcnt := rfl
@[simp] theorem consumeBit_pad : (consumeBit s).pad = s.pad := rfl
@[simp] theorem consumeBit_decRem : (consumeBit s).decRem = s.decRem := rfl
@[simp] theorem consumeBit_decWalk : (consumeBit s).decWalk = s.decWalk := rfl
@[simp] theorem consumeBit_decSh : (consumeBit s).decSh = s.decSh <<< 1 := rfl
@[simp] theorem consumeBit_decShN : (consumeBit s).decShN = s.decShN - 1 := rfl
@[simp] theorem consumeBit_symcnt : (consumeBit s).symcnt = s.symcnt := rfl
@[simp] theorem consumeBit_cur : (consumeBit s).cur = s.cur := rfl
@[simp] theorem consumeBit_carg : (consumeBit s).carg = s.carg := rfl
@[simp] theorem consumeBit_ph : (consumeBit s).ph = s.ph := rfl
@[simp] theorem consumeBit_cnt : (consumeBit s).cnt = s.cnt := rfl
@[simp] theorem consumeBit_events : (consumeBit s).events = s.events := rfl
@[simp] theorem consumeBit_reads : (consumeBit s).reads = s.reads := rfl

end

/-! ### `emitGroup` (R123) -/

section
variable (s : State)

@[simp] theorem emitGroup_cfg : (emitGroup s).cfg = s.cfg := rfl
@[simp] theorem emitGroup_doneIe : (emitGroup s).doneIe = s.doneIe := rfl
@[simp] theorem emitGroup_errIe : (emitGroup s).errIe = s.errIe := rfl
@[simp] theorem emitGroup_busy : (emitGroup s).busy = s.busy := rfl
@[simp] theorem emitGroup_done : (emitGroup s).done = s.done := rfl
@[simp] theorem emitGroup_err : (emitGroup s).err = s.err := rfl
@[simp] theorem emitGroup_inOvf : (emitGroup s).inOvf = s.inOvf := rfl
@[simp] theorem emitGroup_rej : (emitGroup s).rej = s.rej := rfl
@[simp] theorem emitGroup_arg : (emitGroup s).arg = s.arg := rfl
@[simp] theorem emitGroup_errCode : (emitGroup s).errCode = s.errCode := rfl
@[simp] theorem emitGroup_errInfo : (emitGroup s).errInfo = s.errInfo := rfl
@[simp] theorem emitGroup_result0 : (emitGroup s).result0 = s.result0 := rfl
@[simp] theorem emitGroup_result1 : (emitGroup s).result1 = s.result1 := rfl
@[simp] theorem emitGroup_result2 : (emitGroup s).result2 = s.result2 := rfl
@[simp] theorem emitGroup_result3 : (emitGroup s).result3 = s.result3 := rfl
@[simp] theorem emitGroup_inq : (emitGroup s).inq = s.inq := rfl
@[simp] theorem emitGroup_outq : (emitGroup s).outq = s.outq ++ [s.encAcc] := rfl
@[simp] theorem emitGroup_ft : (emitGroup s).ft = s.ft := rfl
@[simp] theorem emitGroup_node : (emitGroup s).node = s.node := rfl
@[simp] theorem emitGroup_treeValid : (emitGroup s).treeValid = s.treeValid := rfl
@[simp] theorem emitGroup_root : (emitGroup s).root = s.root := rfl
@[simp] theorem emitGroup_nodeCount : (emitGroup s).nodeCount = s.nodeCount := rfl
@[simp] theorem emitGroup_code : (emitGroup s).code = s.code := rfl
@[simp] theorem emitGroup_codesValid : (emitGroup s).codesValid = s.codesValid := rfl
@[simp] theorem emitGroup_mode : (emitGroup s).mode = s.mode := rfl
@[simp] theorem emitGroup_encAcc : (emitGroup s).encAcc = 0 := rfl
@[simp] theorem emitGroup_encAccN : (emitGroup s).encAccN = 0 := rfl
@[simp] theorem emitGroup_encSr : (emitGroup s).encSr = s.encSr := rfl
@[simp] theorem emitGroup_encSrN : (emitGroup s).encSrN = s.encSrN := rfl
@[simp] theorem emitGroup_bitcnt : (emitGroup s).bitcnt = s.bitcnt := rfl
@[simp] theorem emitGroup_pad : (emitGroup s).pad = s.pad := rfl
@[simp] theorem emitGroup_decRem : (emitGroup s).decRem = s.decRem := rfl
@[simp] theorem emitGroup_decWalk : (emitGroup s).decWalk = s.decWalk := rfl
@[simp] theorem emitGroup_decSh : (emitGroup s).decSh = s.decSh := rfl
@[simp] theorem emitGroup_decShN : (emitGroup s).decShN = s.decShN := rfl
@[simp] theorem emitGroup_symcnt : (emitGroup s).symcnt = s.symcnt := rfl
@[simp] theorem emitGroup_cur : (emitGroup s).cur = s.cur := rfl
@[simp] theorem emitGroup_carg : (emitGroup s).carg = s.carg := rfl
@[simp] theorem emitGroup_ph : (emitGroup s).ph = s.ph := rfl
@[simp] theorem emitGroup_cnt : (emitGroup s).cnt = s.cnt := rfl
@[simp] theorem emitGroup_events : (emitGroup s).events = s.events := rfl
@[simp] theorem emitGroup_reads : (emitGroup s).reads = s.reads := rfl

end

/-! ### `resetState` (R56, R163) -/

section
variable (s : State)

@[simp] theorem resetState_cfg : (resetState s).cfg = s.cfg := rfl
@[simp] theorem resetState_doneIe : (resetState s).doneIe = State.reset.doneIe := rfl
@[simp] theorem resetState_errIe : (resetState s).errIe = State.reset.errIe := rfl
@[simp] theorem resetState_busy : (resetState s).busy = State.reset.busy := rfl
@[simp] theorem resetState_done : (resetState s).done = State.reset.done := rfl
@[simp] theorem resetState_err : (resetState s).err = State.reset.err := rfl
@[simp] theorem resetState_inOvf : (resetState s).inOvf = State.reset.inOvf := rfl
@[simp] theorem resetState_rej : (resetState s).rej = State.reset.rej := rfl
@[simp] theorem resetState_arg : (resetState s).arg = State.reset.arg := rfl
@[simp] theorem resetState_errCode : (resetState s).errCode = State.reset.errCode := rfl
@[simp] theorem resetState_errInfo : (resetState s).errInfo = State.reset.errInfo := rfl
@[simp] theorem resetState_result0 : (resetState s).result0 = State.reset.result0 := rfl
@[simp] theorem resetState_result1 : (resetState s).result1 = State.reset.result1 := rfl
@[simp] theorem resetState_result2 : (resetState s).result2 = State.reset.result2 := rfl
@[simp] theorem resetState_result3 : (resetState s).result3 = State.reset.result3 := rfl
@[simp] theorem resetState_inq : (resetState s).inq = State.reset.inq := rfl
@[simp] theorem resetState_outq : (resetState s).outq = State.reset.outq := rfl
@[simp] theorem resetState_ft : (resetState s).ft = State.reset.ft := rfl
@[simp] theorem resetState_node : (resetState s).node = State.reset.node := rfl
@[simp] theorem resetState_treeValid : (resetState s).treeValid = State.reset.treeValid := rfl
@[simp] theorem resetState_root : (resetState s).root = State.reset.root := rfl
@[simp] theorem resetState_nodeCount : (resetState s).nodeCount = State.reset.nodeCount := rfl
@[simp] theorem resetState_code : (resetState s).code = State.reset.code := rfl
@[simp] theorem resetState_codesValid : (resetState s).codesValid = State.reset.codesValid := rfl
@[simp] theorem resetState_mode : (resetState s).mode = State.reset.mode := rfl
@[simp] theorem resetState_encAcc : (resetState s).encAcc = State.reset.encAcc := rfl
@[simp] theorem resetState_encAccN : (resetState s).encAccN = State.reset.encAccN := rfl
@[simp] theorem resetState_encSr : (resetState s).encSr = State.reset.encSr := rfl
@[simp] theorem resetState_encSrN : (resetState s).encSrN = State.reset.encSrN := rfl
@[simp] theorem resetState_bitcnt : (resetState s).bitcnt = State.reset.bitcnt := rfl
@[simp] theorem resetState_pad : (resetState s).pad = State.reset.pad := rfl
@[simp] theorem resetState_decRem : (resetState s).decRem = State.reset.decRem := rfl
@[simp] theorem resetState_decWalk : (resetState s).decWalk = State.reset.decWalk := rfl
@[simp] theorem resetState_decSh : (resetState s).decSh = State.reset.decSh := rfl
@[simp] theorem resetState_decShN : (resetState s).decShN = State.reset.decShN := rfl
@[simp] theorem resetState_symcnt : (resetState s).symcnt = State.reset.symcnt := rfl
@[simp] theorem resetState_cur : (resetState s).cur = State.reset.cur := rfl
@[simp] theorem resetState_carg : (resetState s).carg = State.reset.carg := rfl
@[simp] theorem resetState_ph : (resetState s).ph = State.reset.ph := rfl
@[simp] theorem resetState_cnt : (resetState s).cnt = State.reset.cnt := rfl
@[simp] theorem resetState_events : (resetState s).events = s.events := rfl
@[simp] theorem resetState_reads : (resetState s).reads = s.reads := rfl

end

end Sys2Proof.Machine
end

