-- ==== Sys2Proof/Laws/Ops.lean ====
section
/-! SUPPORT. One lemma for each shared operation and each spec notion: reading a table after a write, the FIFO
flags, the priority structure, bit strings. -/

namespace Sys2Proof.Machine

/-! ### Tables -/

/-- Reading the frequency table after a write: the written entry at its symbol, the old one elsewhere. -/
theorem ftAt_ftSet (b c : Byte) (e : FtEntry) (s : State) :
    ftAt (ftSet b e s) c = if c = b then e else ftAt s c := by
  unfold ftAt ftSet
  simp only [Vector.getElem_set]
  by_cases h : c = b
  · simp [h]
  · have : b.toNat ≠ c.toNat := fun hn => h (BitVec.eq_of_toNat_eq hn.symm)
    simp [h, this]

/-- What `storeNodes` leaves at an index: the stored entry inside the stored range, the old one outside. -/
theorem storeNodes_getElem (es : List NodeEntry) (k : Nat) (v : Vector NodeEntry 511) (i : Nat) (hi : i < 511) :
    (storeNodes es k v)[i] = if h : k ≤ i ∧ i - k < es.length then es[i - k]'h.2 else v[i] := by
  induction es generalizing k v with
  | nil => simp [storeNodes]
  | cons e es ih =>
    rw [storeNodes, ih]
    by_cases h1 : k + 1 ≤ i ∧ i - (k + 1) < es.length
    · have h2 : k ≤ i ∧ i - k < (e :: es).length := by simp; omega
      rw [dif_pos h1, dif_pos h2, List.getElem_cons, dif_neg (by omega)]
      simp only [show i - (k + 1) = i - k - 1 by omega]
    · rw [dif_neg h1, Vector.getElem_setIfInBounds]
      by_cases h3 : k = i
      · subst h3
        simp
      · have h2 : ¬ (k ≤ i ∧ i - k < (e :: es).length) := by simp; omega
        rw [dif_neg h2, if_neg h3]

/-- Node reads are bounds checks: an index below 511 names an entry. -/
theorem nodeAt_of_lt (s : State) (i : NodeIdx) (h : i.toNat < 511) : nodeAt s i = some (s.node[i.toNat]'h) := by
  simp [nodeAt, h]

/-- Only index 511 names no entry. -/
theorem nodeAt_eq_none_iff (s : State) (i : NodeIdx) : nodeAt s i = none ↔ i.toNat = 511 := by
  have := i.isLt
  simp [nodeAt]
  omega

/-! ### FIFO flags (R18) -/

theorem inEmpty_iff (s : State) : inEmpty s = true ↔ s.inq = [] := by simp [inEmpty]
theorem outEmpty_iff (s : State) : outEmpty s = true ↔ s.outq = [] := by simp [outEmpty]
theorem inFull_iff (s : State) : inFull s = true ↔ s.inq.length = s.cfg.inDepth.toNat := by simp [inFull]
theorem outFull_iff (s : State) : outFull s = true ↔ s.outq.length = s.cfg.outDepth.toNat := by simp [outFull]

/-! ### The priority structure (R113, R117) -/

/-- The least candidate is one of them. -/
theorem least_mem (c : Cand) (cs : List Cand) : least c cs ∈ c :: cs := by
  induction cs generalizing c with
  | nil => simp [least]
  | cons d ds ih =>
    rw [least]
    have hm := ih (if keyLt d c then d else c)
    cases hk : keyLt d c
    · rw [hk] at hm
      simp only [Bool.false_eq_true, if_false, List.mem_cons] at hm ⊢
      exact hm.elim .inl fun h => .inr (.inr h)
    · rw [hk] at hm
      simp only [if_true, List.mem_cons] at hm ⊢
      exact .inr hm

/-- Taking the least element answers nothing exactly on the empty structure. -/
theorem takeLeast_eq_none_iff (a : List Cand) : takeLeast a = none ↔ a = [] := by
  cases a <;> simp [takeLeast]

/-- What taking the least element leaves: a member is removed, and the rest is the structure without it. -/
theorem takeLeast_cases {a a' : List Cand} {x : Cand} (h : takeLeast a = some (x, a')) :
    x ∈ a ∧ a' = a.erase x ∧ a'.length + 1 = a.length := by
  cases a with
  | nil => simp [takeLeast] at h
  | cons c cs =>
    simp only [takeLeast, Option.some.injEq, Prod.mk.injEq] at h
    obtain ⟨rfl, rfl⟩ := h
    refine ⟨least_mem c cs, rfl, ?_⟩
    have := List.length_erase_of_mem (least_mem c cs)
    simp_all

/-- The key order is a strict order: never both ways. -/
theorem keyLt_asymm (a b : Cand) (h : keyLt a b = true) : keyLt b a = false := by
  simp only [keyLt, BitVec.ult, Bool.or_eq_true, Bool.and_eq_true, decide_eq_true_eq, beq_iff_eq] at h
  simp only [keyLt, BitVec.ult, Bool.or_eq_false_iff, Bool.and_eq_false_iff, decide_eq_false_iff_not, beq_eq_false_iff_ne]
  rcases h with h | ⟨h, h'⟩
  · exact ⟨by omega, Or.inl fun e => by rw [e] at h; omega⟩
  · exact ⟨by rw [h]; omega, Or.inr (by omega)⟩

/-! ### Bit strings (R21) -/

@[simp] theorem bitString_length (n v : Nat) : (bitString n v).length = n := by
  induction n with
  | zero => rfl
  | succ n ih => simp [bitString, ih]

theorem byteBits_append (a b : List Byte) : byteBits (a ++ b) = byteBits a ++ byteBits b := by
  simp [byteBits]

theorem byteBits_singleton (b : Byte) : byteBits [b] = bitString 8 b.toNat := by
  simp [byteBits]

theorem codeString_length (s : State) (b : Byte) : (codeString s b).length = (codeAt s b).len.toNat := by
  simp [codeString]

/-- A symbol has the empty code string exactly when it has no code (R48). -/
theorem codeString_eq_nil_iff (s : State) (b : Byte) : codeString s b = [] ↔ (codeAt s b).len = 0 := by
  rw [← List.length_eq_zero_iff, codeString_length]
  exact ⟨fun h => BitVec.eq_of_toNat_eq h, fun h => by rw [h]; rfl⟩

/-! ### The RUN phase of the invariant -/

theorem runPhaseOk_encData {s : State} (h : decode s.cur = .ok .encData) (hm : s.mode = .enc) : RunPhaseOk s := by
  unfold RunPhaseOk; rw [h]; exact hm

theorem runPhaseOk_encFlush {s : State} (h : decode s.cur = .ok .encFlush) (hm : s.mode = .enc) : RunPhaseOk s := by
  unfold RunPhaseOk; rw [h]; exact hm

theorem runPhaseOk_ftCount {s : State} (h : decode s.cur = .ok .ftCount) (hm : s.treeValid = false) : RunPhaseOk s := by
  unfold RunPhaseOk; rw [h]; exact hm

theorem runPhaseOk_decData {s : State} (h : decode s.cur = .ok .decData) (hm : s.mode = .dec)
    (hc : s.cnt.toNat ≤ s.decRem.toNat) : RunPhaseOk s := by
  unfold RunPhaseOk; rw [h]; exact ⟨hm, hc⟩

end Sys2Proof.Machine
end

