-- ==== Sys2Proof/Laws/PerInstr.lean ====
section
/-! SUPPORT. Laws of the commands as syntax, one lemma per constructor. Family `EncodeSpells`: the encoded word of
a command matches its row of spec/30_encoding.md R80, `(v AND mask) = match`. -/

namespace Sys2Proof.Laws.EncodeSpells

/-- The match and mask columns of R80. -/
def row : Instr → Word × Word
  | .nop => (0x00000000, 0xFFFFFFFF)
  | .reset => (0x01000000, 0xFFFFFFFF)
  | .fifoClr _ _ => (0x02000000, 0xFFFFFFFC)
  | .ftClear => (0x10000000, 0xFFFFFFFF)
  | .ftCount => (0x11000000, 0xFFFFFFFF)
  | .ftLoad _ => (0x12000000, 0xFFFFFF00)
  | .ftGet _ => (0x13000000, 0xFFFFFE00)
  | .ftRead _ => (0x14000000, 0xFFFFFF00)
  | .treeBuild => (0x20000000, 0xFFFFFFFF)
  | .codeGen => (0x21000000, 0xFFFFFFFF)
  | .nodeRead _ => (0x22000000, 0xFFFFFE00)
  | .codeRead _ _ => (0x23000000, 0xFFFFF800)
  | .encInit => (0x30000000, 0xFFFFFFFF)
  | .encData => (0x31000000, 0xFFFFFFFF)
  | .encFlush => (0x32000000, 0xFFFFFFFF)
  | .decInit _ => (0x40000000, 0xFFFFFF00)
  | .decData => (0x41000000, 0xFFFFFFFF)
  | .decFinish => (0x42000000, 0xFFFFFFFF)

/-- R80: the encoded word spells the command's row. -/
def Statement (i : Instr) : Prop := encode i &&& (row i).2 = (row i).1

theorem nop : Statement .nop := rfl
theorem reset : Statement .reset := rfl
theorem fifoClr (a b : Bool) : Statement (.fifoClr a b) := by cases a <;> cases b <;> rfl
theorem ftClear : Statement .ftClear := rfl
theorem ftCount : Statement .ftCount := rfl
theorem ftLoad (x : Byte) : Statement (.ftLoad x) := by unfold Statement; revert x; decide +kernel
theorem ftGet (k : BitVec 9) : Statement (.ftGet k) := by unfold Statement; revert k; decide +kernel
theorem ftRead (x : Byte) : Statement (.ftRead x) := by unfold Statement; revert x; decide +kernel
theorem treeBuild : Statement .treeBuild := rfl
theorem codeGen : Statement .codeGen := rfl
theorem nodeRead (k : NodeIdx) : Statement (.nodeRead k) := by unfold Statement; revert k; decide +kernel
theorem codeRead (x : Byte) (w : BitVec 3) : Statement (.codeRead x w) := by unfold Statement; revert x w; decide +kernel
theorem encInit : Statement .encInit := rfl
theorem encData : Statement .encData := rfl
theorem encFlush : Statement .encFlush := rfl
theorem decInit (p : Byte) : Statement (.decInit p) := by unfold Statement; revert p; decide +kernel
theorem decData : Statement .decData := rfl
theorem decFinish : Statement .decFinish := rfl

end Sys2Proof.Laws.EncodeSpells
end

