-- ==== Sys2Proof/Laws/Step.lean ====
section
/-! SUPPORT. What a step can do, said once: one inversion lemma for each RUN step, for the engine step and for an
event. Later proofs split these cases and do not unfold the step again. -/

namespace Sys2Proof.Machine

/-- FT_COUNT's RUN step (R105): it completes, waits, raises, or counts one byte. -/
theorem ftCountRun_cases {s t : State} (h : ftCountRun s = .next t) :
    (s.cnt = 0 ∧ t = complete s) ∨
    (s.cnt ≠ 0 ∧ s.inq = [] ∧ t = s) ∨
    (∃ b rest, s.cnt ≠ 0 ∧ s.inq = b :: rest ∧ (ftAt s b).count = 0xFFFFFFFF ∧ t = raiseError .countOvf (zext b) s) ∨
    (∃ b rest, s.cnt ≠ 0 ∧ s.inq = b :: rest ∧ (ftAt s b).count ≠ 0xFFFFFFFF ∧
      t = ftSet b { present := true, count := (ftAt s b).count + 1 } { s with inq := rest, cnt := s.cnt - 1 }) := by
  unfold ftCountRun at h
  split at h
  · rename_i hc
    injection h with h
    exact .inl ⟨hc, h.symm⟩
  · rename_i hc
    split at h
    · rename_i hq
      injection h with h
      exact .inr (.inl ⟨hc, hq, h.symm⟩)
    · rename_i b rest hq
      split at h
      · rename_i ho
        injection h with h
        exact .inr (.inr (.inl ⟨b, rest, hc, hq, ho, h.symm⟩))
      · rename_i ho
        injection h with h
        exact .inr (.inr (.inr ⟨b, rest, hc, hq, ho, h.symm⟩))

/-- ENC_DATA's RUN step (R123): it emits a full group, shifts a bit, fetches a code, waits, raises, or
completes. -/
theorem encDataRun_cases {s t : State} (h : encDataRun s = .next t) :
    (s.encAccN = 8 ∧ outFull s = true ∧ t = s) ∨
    (s.encAccN = 8 ∧ outFull s = false ∧ t = emitGroup s) ∨
    (s.encAccN ≠ 8 ∧ s.encSrN ≠ 0 ∧ t = shiftBit s) ∨
    (s.encAccN ≠ 8 ∧ s.encSrN = 0 ∧ s.cnt ≠ 0 ∧ s.inq = [] ∧ t = s) ∨
    (∃ b rest, s.encAccN ≠ 8 ∧ s.encSrN = 0 ∧ s.cnt ≠ 0 ∧ s.inq = b :: rest ∧ (codeAt s b).len = 0 ∧
      t = raiseError .noCode (zext b) s) ∨
    (∃ b rest, s.encAccN ≠ 8 ∧ s.encSrN = 0 ∧ s.cnt ≠ 0 ∧ s.inq = b :: rest ∧ (codeAt s b).len ≠ 0 ∧
      t = { s with inq := rest, encSr := (codeAt s b).bits, encSrN := (codeAt s b).len, cnt := s.cnt - 1 }) ∨
    (s.encAccN ≠ 8 ∧ s.encSrN = 0 ∧ s.cnt = 0 ∧ t = complete s) := by
  unfold encDataRun at h
  split at h
  · rename_i h8
    split at h <;> rename_i hf <;> injection h with h
    · exact .inl ⟨h8, hf, h.symm⟩
    · exact .inr (.inl ⟨h8, by simpa using hf, h.symm⟩)
  · rename_i h8
    split at h
    · rename_i hs
      injection h with h
      exact .inr (.inr (.inl ⟨h8, hs, h.symm⟩))
    · rename_i hs
      have hs : s.encSrN = 0 := by simpa using hs
      split at h
      · rename_i hc
        split at h
        · rename_i hq
          injection h with h
          exact .inr (.inr (.inr (.inl ⟨h8, hs, hc, hq, h.symm⟩)))
        · rename_i b rest hq
          split at h <;> rename_i hl <;> injection h with h
          · exact .inr (.inr (.inr (.inr (.inl ⟨b, rest, h8, hs, hc, hq, hl, h.symm⟩))))
          · exact .inr (.inr (.inr (.inr (.inr (.inl ⟨b, rest, h8, hs, hc, hq, hl, h.symm⟩)))))
      · rename_i hc
        injection h with h
        exact .inr (.inr (.inr (.inr (.inr (.inr ⟨h8, hs, by simpa using hc, h.symm⟩)))))

/-- ENC_FLUSH's RUN step (R124): it waits for room, or closes the stream with or without a partial group. -/
theorem encFlushRun_cases {s t : State} (h : encFlushRun s = .next t) :
    (s.encAccN ≠ 0 ∧ outFull s = true ∧ t = s) ∨
    (s.encAccN ≠ 0 ∧ outFull s = false ∧
      t = closeStream (8 - s.encAccN.val) (pushOut (s.encAcc <<< (8 - s.encAccN.val)) s)) ∨
    (s.encAccN = 0 ∧ t = closeStream 0 s) := by
  unfold encFlushRun at h
  split at h
  · rename_i hn
    split at h <;> rename_i hf <;> injection h with h
    · exact .inl ⟨hn, hf, h.symm⟩
    · exact .inr (.inl ⟨hn, by simpa using hf, h.symm⟩)
  · rename_i hn
    injection h with h
    exact .inr (.inr ⟨by simpa using hn, h.symm⟩)

/-- DEC_DATA's RUN step (R129): a bit is refused, emits a symbol, waits for room or moves the walk; a
payload byte is loaded or awaited; or the command completes. -/
theorem decDataRun_cases {s t : State} (h : decDataRun s = .next t) :
    (s.decShN ≠ 0 ∧ walkMove s = .badBit ∧ t = raiseError .decBadbit s.symcnt s) ∨
    (∃ x, s.decShN ≠ 0 ∧ walkMove s = .emit x ∧ outFull s = true ∧ t = s) ∨
    (∃ x, s.decShN ≠ 0 ∧ walkMove s = .emit x ∧ outFull s = false ∧
      t = pushOut x (consumeBit { s with symcnt := s.symcnt + 1, decWalk := s.root })) ∨
    (∃ nxt, s.decShN ≠ 0 ∧ walkMove s = .move nxt ∧ t = consumeBit { s with decWalk := nxt }) ∨
    (s.decShN = 0 ∧ s.cnt ≠ 0 ∧ s.inq = [] ∧ t = s) ∨
    (∃ b rest, s.decShN = 0 ∧ s.cnt ≠ 0 ∧ s.inq = b :: rest ∧
      t = { s with inq := rest, cnt := s.cnt - 1, decRem := s.decRem - 1, decSh := b
                   decShN := payloadBits (s.decRem - 1) s.pad }) ∨
    (s.decShN = 0 ∧ s.cnt = 0 ∧ t = complete s) := by
  unfold decDataRun at h
  split at h
  · rename_i hn
    split at h
    · injection h
    · rename_i hw
      injection h with h
      exact .inl ⟨hn, hw, h.symm⟩
    · rename_i x hw
      split at h <;> rename_i hf <;> injection h with h
      · exact .inr (.inl ⟨x, hn, hw, hf, h.symm⟩)
      · exact .inr (.inr (.inl ⟨x, hn, hw, by simpa using hf, h.symm⟩))
    · rename_i nxt hw
      injection h with h
      exact .inr (.inr (.inr (.inl ⟨nxt, hn, hw, h.symm⟩)))
  · rename_i hn
    have hn : s.decShN = 0 := by simpa using hn
    split at h
    · rename_i hc
      split at h
      · rename_i hq
        injection h with h
        exact .inr (.inr (.inr (.inr (.inl ⟨hn, hc, hq, h.symm⟩))))
      · rename_i b rest hq
        injection h with h
        exact .inr (.inr (.inr (.inr (.inr (.inl ⟨b, rest, hn, hc, hq, h.symm⟩)))))
    · rename_i hc
      injection h with h
      exact .inr (.inr (.inr (.inr (.inr (.inr ⟨hn, by simpa using hc, h.symm⟩)))))

/-- The walk of one bit (R129), with the node it is at and the node it leads to. -/
theorem walkMove_cases (s : State) :
    (nodeAt s s.decWalk = none ∧ walkMove s = .noNode) ∨
    (∃ e, nodeAt s s.decWalk = some e ∧ e.leaf = true ∧ s.decSh.getLsbD 7 = true ∧ walkMove s = .badBit) ∨
    (∃ e nxt, nodeAt s s.decWalk = some e ∧ (e.leaf = false ∨ s.decSh.getLsbD 7 = false) ∧
      nxt = (if e.leaf then s.decWalk else if s.decSh.getLsbD 7 then e.right else e.left) ∧
      ((nodeAt s nxt = none ∧ walkMove s = .noNode) ∨
       (∃ f, nodeAt s nxt = some f ∧ f.leaf = true ∧ walkMove s = .emit f.sym) ∨
       (∃ f, nodeAt s nxt = some f ∧ f.leaf = false ∧ walkMove s = .move nxt))) := by
  unfold walkMove
  cases he : nodeAt s s.decWalk with
  | none => exact .inl ⟨rfl, rfl⟩
  | some e =>
    refine .inr ?_
    by_cases hbad : (e.leaf && s.decSh.getLsbD 7) = true
    · have hboth := (Bool.and_eq_true _ _).mp hbad
      exact .inl ⟨e, rfl, hboth.1, hboth.2, if_pos hbad⟩
    · have hok : e.leaf = false ∨ s.decSh.getLsbD 7 = false := by
        cases hl : e.leaf <;> cases hb : s.decSh.getLsbD 7 <;> simp_all
      refine .inr ⟨e, _, rfl, hok, rfl, ?_⟩
      dsimp only
      rw [if_neg hbad]
      generalize (if e.leaf = true then s.decWalk else if s.decSh.getLsbD 7 = true then e.right else e.left) = nxt
      cases hn : nodeAt s nxt with
      | none => exact .inl ⟨rfl, rfl⟩
      | some f =>
        cases hf : f.leaf
        · exact .inr (.inr ⟨f, rfl, hf, by simp [hf]⟩)
        · exact .inr (.inl ⟨f, rfl, hf, by simp [hf]⟩)

/-- The engine step (R90 to R92): idle, a BAD_CMD, the start part of a command or a streaming command's
micro-step. -/
theorem engineStep_cases {s t : State} (h : engineStep s = .next t) :
    (s.busy = false ∧ t = s) ∨
    (s.busy = true ∧ s.ph = .start ∧ (decode s.cur = .ok .reset ∨ ∃ e, decode s.cur = .error e) ∧
      t = raiseError .badCmd s.cur s) ∨
    (∃ i, s.busy = true ∧ s.ph = .start ∧ decode s.cur = .ok i ∧ i ≠ .reset ∧ exec i s = .next t) ∨
    (∃ i, s.busy = true ∧ s.ph = .run ∧ decode s.cur = .ok i ∧ streaming i = true ∧ exec i s = .next t) := by
  unfold engineStep at h
  cases hb : s.busy with
  | false =>
    simp only [hb, Bool.false_eq_true, if_false] at h
    injection h with h
    exact .inl ⟨rfl, h.symm⟩
  | true =>
    simp only [hb, if_true] at h
    cases hp : s.ph with
    | start =>
      simp only [hp, startStep] at h
      split at h
      · rename_i e he
        injection h with h
        exact .inr (.inl ⟨rfl, rfl, .inr ⟨e, he⟩, h.symm⟩)
      · rename_i he
        injection h with h
        exact .inr (.inl ⟨rfl, rfl, .inl he, h.symm⟩)
      · rename_i i hn he
        exact .inr (.inr (.inl ⟨i, rfl, rfl, he, fun hr => by subst hr; exact hn rfl, h⟩))
    | run =>
      simp only [hp, runStep] at h
      split at h
      · injection h
      · rename_i i he
        split at h
        · rename_i hs
          exact .inr (.inr (.inr ⟨i, rfl, rfl, he, hs, h⟩))
        · injection h

/-- What a step does, by the next event (R12, R13). -/
theorem step_cases (s : State) :
    (s.events = [] ∧ step s = engineStep s) ∨
    (∃ e rest, s.events = e :: rest ∧ step s = applyEvent e { s with events := rest }) := by
  cases h : s.events with
  | nil => exact .inl ⟨rfl, by simp [step, nextEvent, h, applyEvent]⟩
  | cons e rest => exact .inr ⟨e, rest, rfl, by simp [step, nextEvent, h]⟩

/-- No command is refused: every one has its meaning. -/
theorem exec_not_refused (i : Instr) (s : State) (r : Refusal) : exec i s ≠ .refused r := by
  cases i <;> intro h
  all_goals
    simp only [exec, execNop, execReset, execFifoClr, execFtClear, execFtCount, ftCountRun, execFtLoad, execFtGet, execFtRead,
      execTreeBuild, execCodeGen, execNodeRead, execCodeRead, execEncInit, execEncData, encDataRun, execEncFlush, encFlushRun,
      execDecInit, execDecData, decDataRun, execDecFinish] at h
  all_goals repeat' split at h
  all_goals cases h

/-- A host access never stops (R62): only the engine's event can. -/
theorem applyEvent_next_of_ne_engine (e : Event) (s : State) (h : e ≠ .engine) : ∃ t, applyEvent e s = .next t := by
  cases e with
  | engine => exact absurd rfl h
  | busRead off => exact ⟨_, rfl⟩
  | busWrite off v => exact ⟨_, rfl⟩
  | hwReset => exact ⟨_, rfl⟩

end Sys2Proof.Machine
end

