-- ==== Sys2Proof/Tests/Slice0.lean ====
section
/-! SUPPORT. The model's own tests. Expected values come from the spec: the worked vectors of
spec/95_test_vectors.md (cited as V<n>), the examples of the rules, or the encodings of spec/30_encoding.md. Then
one witness for the hypotheses of every statement that has some. -/

namespace Sys2Proof.Tests

set_option Elab.async false

open Sys2Proof.Machine

/-! ### Well-formedness: an ill-formed line for each check (R87) -/

theorem test_wf_wr : (ScriptLine.wr .arg (2 ^ 32)).wellFormed = false := by decide
theorem test_wf_fifoClr_in : (ScriptLine.fifoClr 2 0).wellFormed = false := by decide
theorem test_wf_fifoClr_out : (ScriptLine.fifoClr 0 2).wellFormed = false := by decide
theorem test_wf_ftCount : (ScriptLine.ftCount (2 ^ 32)).wellFormed = false := by decide
theorem test_wf_ftLoad_sym : (ScriptLine.ftLoad 256 1).wellFormed = false := by decide
theorem test_wf_ftLoad_count : (ScriptLine.ftLoad 1 (2 ^ 32)).wellFormed = false := by decide
theorem test_wf_ftGet : (ScriptLine.ftGet 512).wellFormed = false := by decide
theorem test_wf_ftRead : (ScriptLine.ftRead 256).wellFormed = false := by decide
theorem test_wf_nodeRead : (ScriptLine.nodeRead 512).wellFormed = false := by decide
theorem test_wf_codeRead_sym : (ScriptLine.codeRead 256 0).wellFormed = false := by decide
theorem test_wf_codeRead_word : (ScriptLine.codeRead 0 8).wellFormed = false := by decide
theorem test_wf_encData : (ScriptLine.encData (2 ^ 32)).wellFormed = false := by decide
theorem test_wf_decInit_pad : (ScriptLine.decInit 256 1).wellFormed = false := by decide
theorem test_wf_decInit_len : (ScriptLine.decInit 7 (2 ^ 32)).wellFormed = false := by decide
theorem test_wf_decData : (ScriptLine.decData (2 ^ 32)).wellFormed = false := by decide
theorem test_wf_push : (ScriptLine.push [0x1F, 256]).wellFormed = false := by decide
theorem test_wf_script : Script.wellFormed [.nop, .ftLoad 255 (2 ^ 32 - 1), .decInit 255 2, .codeRead 255 7] = true := by decide

/-! ### Decoding: every constructor's word, written out from R78 and R80 -/

theorem test_decode_nop : decode (0x00#8 ++ 0#24) = .ok .nop := by decide +kernel
theorem test_decode_reset : decode (0x01#8 ++ 0#24) = .ok .reset := by decide +kernel
theorem test_decode_fifoClr : decode (0x02#8 ++ 0#22 ++ 0#1 ++ 1#1) = .ok (.fifoClr true false) := by decide +kernel
theorem test_decode_ftClear : decode (0x10#8 ++ 0#24) = .ok .ftClear := by decide +kernel
theorem test_decode_ftCount : decode (0x11#8 ++ 0#24) = .ok .ftCount := by decide +kernel
theorem test_decode_ftLoad : decode (0x12#8 ++ 0#16 ++ 0xA5#8) = .ok (.ftLoad 0xA5) := by decide +kernel
theorem test_decode_ftGet : decode (0x13#8 ++ 0#15 ++ 0x1A5#9) = .ok (.ftGet 0x1A5) := by decide +kernel
theorem test_decode_ftRead : decode (0x14#8 ++ 0#16 ++ 0xA5#8) = .ok (.ftRead 0xA5) := by decide +kernel
theorem test_decode_treeBuild : decode (0x20#8 ++ 0#24) = .ok .treeBuild := by decide +kernel
theorem test_decode_codeGen : decode (0x21#8 ++ 0#24) = .ok .codeGen := by decide +kernel
theorem test_decode_nodeRead : decode (0x22#8 ++ 0#15 ++ 0x1FE#9) = .ok (.nodeRead 510) := by decide +kernel
theorem test_decode_codeRead : decode (0x23#8 ++ 0#13 ++ 6#3 ++ 0xA5#8) = .ok (.codeRead 0xA5 6) := by decide +kernel
theorem test_decode_encInit : decode (0x30#8 ++ 0#24) = .ok .encInit := by decide +kernel
theorem test_decode_encData : decode (0x31#8 ++ 0#24) = .ok .encData := by decide +kernel
theorem test_decode_encFlush : decode (0x32#8 ++ 0#24) = .ok .encFlush := by decide +kernel
theorem test_decode_decInit : decode (0x40#8 ++ 0#16 ++ 0x07#8) = .ok (.decInit 7) := by decide +kernel
theorem test_decode_decData : decode (0x41#8 ++ 0#24) = .ok .decData := by decide +kernel
theorem test_decode_decFinish : decode (0x42#8 ++ 0#24) = .ok .decFinish := by decide +kernel
/-- R82, V2.3, V2.6, V2.7: a reserved bit set, an unassigned opcode. -/
theorem test_decode_rejects : decode 0x00000001 = .error (.reservedBitSet 0x00000001) ∧
    decode 0xFF000000 = .error (.unassignedOpcode 0xFF000000) ∧
    decode 0x01000001 = .error (.reservedBitSet 0x01000001) := by decide +kernel
/-- R80: no two rows of the map match one word, since every mask covers OP and the OPs differ. -/
theorem test_rows_disjoint : opcodeMap.Pairwise (fun a b => opField a.pattern ≠ opField b.pattern) ∧
    opcodeMap.all (fun r => opField r.mask == 0xFF) = true := by decide +kernel

/-! ### Small states -/

/-- The state a meaning answers (the reset state for a stop). -/
def after (o : Host.Outcome State Fault Refusal) : State :=
  match o with
  | .next t => t
  | .fault _ => State.reset
  | .refused _ => State.reset

/-- A table with the given entries. -/
def table (es : List (Byte × Word)) : State :=
  es.foldl (fun s e => ftSet e.1 { present := true, count := e.2 } s) State.reset

/-- The "aaabbc" table {a:3, b:2, c:1}, its tree and its codes (V4.1). -/
def tableA : State := table [(0x61, 3), (0x62, 2), (0x63, 1)]
def treeA : State := after (exec .treeBuild tableA)
def codesA : State := after (exec .codeGen treeA)
/-- The single-leaf tree {z:4} (V4.4). -/
def treeZ : State := after (exec .treeBuild (table [(0x7A, 4)]))

/-- A command in its START phase, and a streaming one in its RUN phase. -/
def started (w : Word) (s : State) : State := { s with busy := true, done := false, ph := .start, cur := w }
def running (w : Word) (s : State) : State := { s with busy := true, ph := .run, cur := w }

/-! ### One step of each command -/

/-- V2.2: NOP, one engine step. -/
theorem test_nop : statusWord (after (engineStep (started 0 State.reset))) = 0x00000052 := by decide +kernel
/-- V2.14: RESET on a stalled FT_COUNT. -/
theorem test_reset : statusWord (running 0x11000000 { State.reset with cnt := 5 }) = 0x00004051 ∧
    statusWord (after (exec .reset (running 0x11000000 { State.reset with cnt := 5 }))) = 0x00000050 := by decide +kernel
/-- V2.10: FIFO_CLR 1, 0. -/
theorem test_fifoClr : (after (exec (.fifoClr true false) { State.reset with inq := [1, 2, 3], outq := [4] })).inq = [] ∧
    (after (exec (.fifoClr true false) { State.reset with inq := [1, 2, 3], outq := [4] })).outq = [4] := by decide +kernel
/-- V3.10. -/
theorem test_ftClear : busReadValue 0x3C (after (exec .ftClear codesA)) = 0 ∧
    statusWord (after (exec .ftClear codesA)) = 0x00000052 := by decide +kernel
/-- V3.11: counts add to the table. -/
theorem test_ftCount_adds : (ftAt (after (exec .ftCount (running 0x11000000 { tableA with inq := [0x61], cnt := 1 }))) 0x61).count = 4 := by
  decide +kernel
/-- V3.6: COUNT_OVF leaves the byte in IN. -/
theorem test_ftCount_overflow :
    (after (exec .ftCount (running 0x11000000 { table [(0x61, 0xFFFFFFFF)] with inq := [0x61], cnt := 1 }))).errCode = 0x06 ∧
    (after (exec .ftCount (running 0x11000000 { table [(0x61, 0xFFFFFFFF)] with inq := [0x61], cnt := 1 }))).inq = [0x61] := by
  decide +kernel
/-- V3.8: a zero count makes a present symbol. -/
theorem test_ftLoad_zero : ftAt (after (exec (.ftLoad 0x61) State.reset)) 0x61 = { present := true, count := 0 } := by decide +kernel
/-- V3.7: DUP_SYMBOL. -/
theorem test_ftLoad_dup : (after (exec (.ftLoad 0x62) { tableA with carg := 5 })).errCode = 0x07 ∧
    (after (exec (.ftLoad 0x62) { tableA with carg := 5 })).errInfo = 0x62 := by decide +kernel
/-- V3.2: FT_GET 1. -/
theorem test_ftGet : (after (exec (.ftGet 1) tableA)).result0 = 0x62 ∧ (after (exec (.ftGet 1) tableA)).result1 = 2 := by decide +kernel
/-- V3.3: BAD_INDEX at k = n_sym. -/
theorem test_ftGet_badIndex : (after (exec (.ftGet 3) tableA)).errCode = 0x08 ∧ (after (exec (.ftGet 3) tableA)).errInfo = 3 := by
  decide +kernel
/-- V3.4. -/
theorem test_ftRead : (after (exec (.ftRead 0x63) tableA)).result0 = 1 ∧ (after (exec (.ftRead 0x63) tableA)).result1 = 1 := by
  decide +kernel
theorem test_ftRead_absent : (after (exec (.ftRead 0x64) { tableA with result0 := 9 })).result0 = 0 := by decide +kernel
/-- V4.2: a tie of two leaves, then of a leaf and an internal node. -/
theorem test_treeBuild_ties :
    nodeAt (after (exec .treeBuild (table [(0x78, 1), (0x79, 1), (0x7A, 2)]))) 4 =
      some { leaf := false, sym := 0, left := 2, right := 3, w := 4 } := by decide +kernel
/-- V4.3: a tie of two internal nodes. -/
theorem test_treeBuild_internal_tie :
    nodeAt (after (exec .treeBuild (table [(0x61, 1), (0x62, 1), (0x63, 1), (0x64, 1)]))) 6 =
      some { leaf := false, sym := 0, left := 4, right := 5, w := 4 } := by decide +kernel
/-- V4.1: a = "0", b = "11", c = "10". -/
theorem test_codeGen : codeAt codesA 0x61 = { len := 1, bits := 0 } ∧ codeAt codesA 0x62 = { len := 2, bits := 3 } ∧
    codeAt codesA 0x63 = { len := 2, bits := 2 } := by decide +kernel
/-- V4.4: the single symbol's code is "0". -/
theorem test_codeGen_single : codeAt (after (exec .codeGen treeZ)) 0x7A = { len := 1, bits := 0 } := by decide +kernel
/-- V4.1: NODE_READ 3. -/
theorem test_nodeRead : (after (exec (.nodeRead 3) treeA)).result1 = 0x00010002 ∧ (after (exec (.nodeRead 3) treeA)).result2 = 3 := by
  decide +kernel
theorem test_nodeRead_leaf : (after (exec (.nodeRead 0) treeA)).result0 = 0x80000061 := by decide +kernel
/-- V4.11's shape: word 1 of a 46-bit code. -/
theorem test_codeRead : (after (exec (.codeRead 0 1)
    { State.reset with codesValid := true, code := State.reset.code.set 0 { len := 46, bits := 0x3FFFFFFFFFFE } })).result1 = 0x00003FFF := by
  decide +kernel
/-- V4.7: NO_CODES. -/
theorem test_codeRead_noCodes : (after (exec (.codeRead 0 0) State.reset)).errCode = 0x04 := by decide +kernel
/-- R122's example. -/
theorem test_encInit : (after (exec .encInit { codesA with pad := 3, bitcnt := 9 })).mode = .enc ∧
    (after (exec .encInit { codesA with pad := 3, bitcnt := 9 })).pad = 0 := by decide +kernel
/-- R123: the first code bit is the high one. -/
theorem test_encData_shift :
    (after (exec .encData (running 0x31000000 { codesA with encAcc := 1, encAccN := 1, encSr := 2, encSrN := 2 }))).encAcc = 3 := by
  decide +kernel
/-- V5.10: NO_CODE for 'd'. -/
theorem test_encData_noCode :
    (after (exec .encData (running 0x31000000 { codesA with inq := [0x64, 0x62], cnt := 2 }))).errCode = 0x05 ∧
    (after (exec .encData (running 0x31000000 { codesA with inq := [0x64, 0x62], cnt := 2 }))).inq = [0x64, 0x62] := by decide +kernel
/-- V5.7's end: the last 7 bits 1101110 with one filler bit are 0xDC. -/
theorem test_encFlush : (after (exec .encFlush (running 0x32000000 { codesA with encAcc := 0x6E, encAccN := 7, bitcnt := 23 }))).outq = [0xDC] ∧
    (after (exec .encFlush (running 0x32000000 { codesA with encAcc := 0x6E, encAccN := 7, bitcnt := 23 }))).result0 = 1 := by decide +kernel
/-- V5.13. -/
theorem test_encFlush_empty : (after (exec .encFlush (running 0x32000000 codesA))).outq = [] := by decide +kernel
/-- V6.1. -/
theorem test_decInit : (after (exec (.decInit 7) { treeA with carg := 2 })).decWalk = 4 ∧
    (after (exec (.decInit 7) { treeA with carg := 2 })).pad = 7 := by decide +kernel
/-- V6.6. -/
theorem test_decInit_badPad : (after (exec (.decInit 8) { treeA with carg := 2 })).errCode = 0x09 := by decide +kernel
/-- R129: the last payload byte contributes `8 - PAD` bits. -/
theorem test_decData_trim : (after (exec .decData (running 0x41000000
    { treeA with mode := .dec, decRem := 1, cnt := 1, pad := 7, inq := [0x7F] }))).decShN = 1 := by decide +kernel
/-- V6.10: DEC_BADBIT. -/
theorem test_decData_badBit : (after (exec .decData (running 0x41000000
    { treeZ with mode := .dec, decSh := 0x80, decShN := 4 }))).errCode = 0x0F := by decide +kernel
/-- V6.5: DEC_TRUNC before DEC_PARTIAL. -/
theorem test_decFinish_trunc : (after (exec .decFinish { treeA with mode := .dec, decRem := 1, decWalk := 3 })).errCode = 0x0C := by
  decide +kernel
/-- V6.4: DEC_PARTIAL with the walk node. -/
theorem test_decFinish_partial : (after (exec .decFinish { treeA with mode := .dec, decWalk := 3 })).errInfo = 3 := by decide +kernel

/-! ### The bus and the host -/

/-- V2.11: the seventeenth byte is dropped. -/
theorem test_inOvf : statusWord (busWrite 0x30 16 { State.reset with inq := List.replicate 16 0 }) = 0x00000248 := by decide +kernel
/-- V5.15: a stall on OUT with OUT_DEPTH = 1. -/
theorem test_stallOut : statusWord (running 0x31000000
    { codesA with cfg := { inDepth := 16, outDepth := 1 }, mode := .enc, done := false, outq := [0], encAccN := 8 }) = 0x000091B1 := by
  decide +kernel
/-- V2.12: a reserved slot reads 0; V2.1: PARAM. -/
theorem test_window : busReadValue 0x80 codesA = 0 ∧ busReadValue 0x5B codesA = 0x00100010 := by decide +kernel
/-- The very next step runs a placed command, RESET too (log 5). -/
theorem test_placed : (after (step (State.reset.withFetchWord 32 0))).done = true ∧
    (after (step ({ tableA with arg := 7 }.withFetchWord 32 0x01000000))).arg = 0 := by decide +kernel
/-- A read's value goes to the host: V2.1's PARAM. -/
theorem test_read_event : (after (step { State.reset with events := [.busRead 0x58] })).reads = [0x00100010] := by decide +kernel
/-- Section 1.1's container, entry 1 (R135). -/
theorem test_container : entryAt [7, 0, 0, 0, 3, 0, 0, 0, 0x61, 3, 0, 0, 0, 0x62, 2, 0, 0, 0, 0x63, 1, 0, 0, 0, 0x1F, 0] 1 = (0x62, 2) := by
  decide +kernel

/-! ### Witnesses: states and operands that meet the hypotheses of each statement, clause by clause -/

/-- Whether a meaning answers a next state. -/
def goesOn (o : Host.Outcome State Fault Refusal) : Bool :=
  match o with
  | .next _ => true
  | .fault _ => false
  | .refused _ => false

theorem eq_next_after {o : Host.Outcome State Fault Refusal} (h : goesOn o = true) : o = .next (after o) := by
  cases o <;> simp_all [goesOn, after]

/-- The "aaabbc" tree has its shape. -/
theorem treeShape_treeA : TreeShape treeA where
  nonempty := by decide +kernel
  count := by decide +kernel
  rootLast := by decide +kernel
  leaves := by decide +kernel
  internals := by decide +kernel
  parents := by decide +kernel

/-- So has the single-leaf tree. -/
theorem treeShape_treeZ : TreeShape treeZ where
  nonempty := by decide +kernel
  count := by decide +kernel
  rootLast := by decide +kernel
  leaves := by decide +kernel
  internals := by decide +kernel
  parents := by decide +kernel

/-- TREE_BUILD about to start on the "aaabbc" table. -/
def buildState : State := started 0x20000000 tableA

theorem controlInv_buildState : ControlInv buildState where
  cfgValid := by decide +kernel
  inBound := by decide +kernel
  outBound := by decide +kernel
  errIdle := by decide +kernel
  doneIdle := by decide +kernel
  noErrRecord := by decide +kernel
  errCodeNamed := by decide +kernel
  codesNeedTree := by decide +kernel
  encNeedsCodes := by decide +kernel
  decNeedsTree := by decide +kernel
  groupInEncData := by decide +kernel
  runBusy := by decide +kernel
  runPhase := fun h => by cases h
  groupCount := by decide +kernel

/-- CODE_GEN about to start on the "aaabbc" tree. -/
def genState : State := started 0x21000000 treeA

theorem controlInv_genState : ControlInv genState where
  cfgValid := by decide +kernel
  inBound := by decide +kernel
  outBound := by decide +kernel
  errIdle := by decide +kernel
  doneIdle := by decide +kernel
  noErrRecord := by decide +kernel
  errCodeNamed := by decide +kernel
  codesNeedTree := by decide +kernel
  encNeedsCodes := by decide +kernel
  decNeedsTree := by decide +kernel
  groupInEncData := by decide +kernel
  runBusy := by decide +kernel
  runPhase := fun h => by cases h
  groupCount := by decide +kernel

/-- DEC_INIT 7 about to start on it, with payload length 2 (V6.1). -/
def decInitState : State := started 0x40000007 { treeA with arg := 2, carg := 2 }

theorem controlInv_decInitState : ControlInv decInitState where
  cfgValid := by decide +kernel
  inBound := by decide +kernel
  outBound := by decide +kernel
  errIdle := by decide +kernel
  doneIdle := by decide +kernel
  noErrRecord := by decide +kernel
  errCodeNamed := by decide +kernel
  codesNeedTree := by decide +kernel
  encNeedsCodes := by decide +kernel
  decNeedsTree := by decide +kernel
  groupInEncData := by decide +kernel
  runBusy := by decide +kernel
  runPhase := fun h => by cases h
  groupCount := by decide +kernel

/-- ENC_FLUSH running with 7 bits held, BITCNT 23 (V5.7). -/
def flushState : State :=
  running 0x32000000 { codesA with done := false, mode := .enc, encAcc := 0x6E, encAccN := 7, bitcnt := 23 }

theorem controlInv_flushState : ControlInv flushState where
  cfgValid := by decide +kernel
  inBound := by decide +kernel
  outBound := by decide +kernel
  errIdle := by decide +kernel
  doneIdle := by decide +kernel
  noErrRecord := by decide +kernel
  errCodeNamed := by decide +kernel
  codesNeedTree := by decide +kernel
  encNeedsCodes := by decide +kernel
  decNeedsTree := by decide +kernel
  groupInEncData := by decide +kernel
  runBusy := by decide +kernel
  runPhase := fun _ => runPhaseOk_encFlush (by decide +kernel) (by decide +kernel)
  groupCount := by decide +kernel

/-- DEC_DATA running on the "aaabbc" tree: one bit (0, the code of 'a') of the current byte is left and no
byte is to come. -/
def decodeState : State :=
  running 0x41000000 { treeA with done := false, mode := .dec, decWalk := 4, decShN := 1, pad := 7 }

theorem inv_decodeState : Inv decodeState where
  control := {
    cfgValid := by decide +kernel
    inBound := by decide +kernel
    outBound := by decide +kernel
    errIdle := by decide +kernel
    doneIdle := by decide +kernel
    noErrRecord := by decide +kernel
    errCodeNamed := by decide +kernel
    codesNeedTree := by decide +kernel
    encNeedsCodes := by decide +kernel
    decNeedsTree := by decide +kernel
    groupInEncData := by decide +kernel
    runBusy := by decide +kernel
    runPhase := fun _ => runPhaseOk_decData (by decide +kernel) (by decide +kernel) (by decide +kernel)
    groupCount := by decide +kernel }
  table := {
    absentZero := by decide +kernel
    tree := fun _ => {
      nonempty := by decide +kernel
      count := by decide +kernel
      rootLast := by decide +kernel
      leaves := by decide +kernel
      internals := by decide +kernel
      parents := by decide +kernel }
    walk := fun _ => .inl (by decide +kernel)
    codeWidth := by decide +kernel }

theorem witness_DecodedWordIsItsEncoding : decode 0x230005A5 = .ok (.codeRead 0xA5 5) := by decide +kernel

theorem illegal_00000001 : ∀ i, decode 0x00000001 ≠ .ok i := by
  intro i h
  rw [show decode 0x00000001 = .error (.reservedBitSet 0x00000001) by decide +kernel] at h
  cases h

theorem witness_IllegalWordRaisesBadCmd : State.reset.busy = false ∧ State.reset.err = false ∧
    (∀ i, decode 0x00000001 ≠ .ok i) ∧
    (0xFF000000 : Word).extractLsb' 24 8 ∉ ([0x00, 0x01, 0x02, 0x10, 0x11, 0x12, 0x13, 0x14, 0x20, 0x21, 0x22, 0x23,
      0x30, 0x31, 0x32, 0x40, 0x41, 0x42] : List (BitVec 8)) ∧
    (0x42800000 : Word).extractLsb' 0 24 ≠ 0 ∧ (0x02000004 : Word).extractLsb' 2 22 ≠ 0 ∧
    (0x14000100 : Word).extractLsb' 8 16 ≠ 0 ∧ (0x22000200 : Word).extractLsb' 9 15 ≠ 0 ∧
    (0x23000800 : Word).extractLsb' 11 13 ≠ 0 :=
  ⟨rfl, rfl, illegal_00000001, by decide +kernel, by decide, by decide, by decide, by decide, by decide⟩

theorem witness_ResetHasOneSpelling : (0x01000001 : Word).extractLsb' 24 8 = 0x01 ∧ (0x01000001 : Word) ≠ 0x01000000 ∧
    State.reset.busy = false ∧ State.reset.err = false := by decide +kernel

theorem witness_StepRunsTheDecodedCommand :
    { State.reset with events := [.busWrite 0x10 (encode .reset)] }.events = .busWrite 0x10 (encode .reset) :: [] ∧
    ((Instr.nop ≠ .reset) ∧ decode (started 0 State.reset).cur = .ok .nop ∧ (started 0 State.reset).busy = true ∧
      (started 0 State.reset).ph = .start ∧ (started 0 State.reset).events = []) ∧
    (decode flushState.cur = .ok .encFlush ∧ flushState.busy = true ∧ flushState.ph = .run ∧
      streaming .encFlush = true ∧ { flushState with events := [.engine, .hwReset] }.events = .engine :: [.hwReset]) ∧
    { State.reset with events := [.hwReset, .engine] }.events = .hwReset :: [.engine] ∧
    { State.reset with events := [.busWrite 0x14 7] }.events = .busWrite 0x14 7 :: [] ∧
    { State.reset with events := [.busRead 0x58] }.events = .busRead 0x58 :: [] := by
  decide +kernel

theorem witness_CmdWriteAcceptance : ((0x01000000 : Word) = 0x01000000) ∧
    ((0 : Word) ≠ 0x01000000 ∧ (started 0 State.reset).busy = true) ∧
    ((0x01000001 : Word) ≠ 0x01000000 ∧ { State.reset with err := true }.err = true) ∧
    ((0x00FFFFFF : Word) ≠ 0x01000000 ∧ State.reset.busy = false ∧ State.reset.err = false) := by decide +kernel

theorem witness_RaisingStepWritesOnlyTheErrorRecord :
    (∃ t, engineStep (started 0xFF000000 State.reset) = .next t ∧ (started 0xFF000000 State.reset).err = false ∧
      t.err = true) ∧ ControlInv flushState :=
  ⟨⟨_, eq_next_after (by decide +kernel), by decide +kernel, by decide +kernel⟩, controlInv_flushState⟩

theorem witness_PendingErrorHoldsUntilAcknowledged :
    let s := { State.reset with err := true, errCode := 1, errInfo := 0xFF000000 }
    ∀ e ∈ [Event.busWrite 0x13 0, Event.busWrite 0x0C 0x402, Event.engine],
    s.err = true ∧ s.busy = false ∧ e ≠ .hwReset ∧
    (∀ off v, e = .busWrite off v → off.extractLsb' 2 6 = 4 → v ≠ 0x01000000) ∧
    (∀ off v, e = .busWrite off v → off.extractLsb' 2 6 = 3 → v.getLsbD 2 = false) ∧
    ∃ t, applyEvent e s = .next t := by
  intro s e he
  simp only [List.mem_cons, List.not_mem_nil, or_false] at he
  rcases he with rfl | rfl | rfl
  · refine ⟨rfl, rfl, by simp, ?_, ?_, _, rfl⟩ <;> intro off v h <;> injection h with h1 h2 <;> subst h1 <;> subst h2 <;> decide
  · refine ⟨rfl, rfl, by simp, ?_, ?_, _, rfl⟩ <;> intro off v h <;> injection h with h1 h2 <;> subst h1 <;> subst h2 <;> decide
  · exact ⟨rfl, rfl, by simp, nofun, nofun, _, rfl⟩

theorem witness_IrqIsRaisedByTheEndingStepAndDroppedByItsCauses :
    let s := started 0 { State.reset with doneIe := true }
    let r := started 0x20000000 { State.reset with errIe := true }
    let u := { State.reset with done := true, doneIe := true }
    goesOn (engineStep s) = true ∧ s.busy = true ∧ (after (engineStep s)).busy = false ∧
    (after (engineStep s)).done = true ∧ s.doneIe = true ∧
    goesOn (engineStep r) = true ∧ r.busy = true ∧ (after (engineStep r)).busy = false ∧
    (after (engineStep r)).err = true ∧ r.errIe = true ∧
    goesOn (applyEvent (.busWrite 0x0C 2) u) = true ∧ irq u = true ∧ irq (after (applyEvent (.busWrite 0x0C 2) u)) = false ∧
    (0x6 : Word).getLsbD 1 = true ∧ (0x6 : Word).getLsbD 2 = true ∧ State.reset.busy = false ∧ State.reset.err = false := by
  decide +kernel

theorem witness_OnlyTheSlotBitsOfAnOffsetMatter : (0x0F : Word).extractLsb' 2 6 = (0x10C : Word).extractLsb' 2 6 := by decide

theorem witness_ReservedAndReadOnlySlots :
    0x17 ≤ ((0x5C : Word).extractLsb' 2 6).toNat ∧ 0x17 ≤ ((0xFF : Word).extractLsb' 2 6).toNat ∧
    ((0x00 : Word).extractLsb' 2 6).toNat ∉ [0x02, 0x03, 0x04, 0x05, 0x0C] ∧
    ((0x18 : Word).extractLsb' 2 6).toNat ∉ [0x02, 0x03, 0x04, 0x05, 0x0C] ∧
    ((0x10 : Word).extractLsb' 2 6).toNat ∈ [0x04, 0x0C] ∧ ((0x30 : Word).extractLsb' 2 6).toNat ∈ [0x04, 0x0C] := by decide

theorem witness_OnlyTheDataOutReadHasAnEffect : (0x30 : Word).extractLsb' 2 6 ≠ 0x0D ∧ (0x38 : Word).extractLsb' 2 6 ≠ 0x0D := by
  decide

theorem witness_DataRegisters :
    { State.reset with inq := List.replicate 15 0 }.inq.length ≠ State.reset.cfg.inDepth.toNat ∧
    { State.reset with inq := List.replicate 16 0 }.inq.length = State.reset.cfg.inDepth.toNat ∧
    { State.reset with outq := [0x61] }.outq = 0x61 :: [] ∧ State.reset.outq = [] := by decide +kernel

theorem witness_ControlAndArgumentRegisters : (0 : Word) ≠ 0x01000000 ∧ State.reset.busy = false ∧ State.reset.err = false := by
  decide

theorem witness_ReadOnlyRegisterValues : treeA.treeValid = true ∧ tableA.treeValid = false ∧
    ControlInv flushState ∧ flushState.err = false :=
  ⟨by decide +kernel, by decide +kernel, controlInv_flushState, by decide +kernel⟩

/-- One step each that changes RESULT0 and 1 (FT_READ), RESULT2 (NODE_READ) and RESULT3 (a node of weight 2^32). -/
theorem witness_ResultsChangeOnlyByTheCommandsThatNameThem :
    (goesOn (engineStep (started 0x14000061 tableA)) = true ∧
      (after (engineStep (started 0x14000061 tableA))).result0 ≠ tableA.result0 ∧
      (after (engineStep (started 0x14000061 tableA))).result1 ≠ tableA.result1) ∧
    (goesOn (engineStep (started 0x22000003 treeA)) = true ∧
      (after (engineStep (started 0x22000003 treeA))).result2 ≠ treeA.result2) ∧
    (let s := started 0x22000000 { State.reset with
        treeValid := true, nodeCount := 1, node := State.reset.node.set 0 { leaf := true, sym := 0, left := 0, right := 0, w := 0x100000000 } };
      goesOn (engineStep s) = true ∧ (after (engineStep s)).result3 ≠ s.result3) := by decide +kernel

theorem witness_ResetValues : State.reset.cfg.Valid := by decide

theorem witness_InvalidTablesCannotBeObserved :
    (ControlInv buildState ∧ buildState.treeValid = false ∧
      ∃ t, step buildState = .next t ∧ t.treeValid = true ∧ 0 < t.nodeCount.toNat) ∧
    (ControlInv genState ∧ genState.codesValid = false ∧ genState.treeValid = true ∧
      ∃ t, step genState = .next t ∧ t.codesValid = true) :=
  ⟨⟨controlInv_buildState, by decide +kernel, _, eq_next_after (by decide +kernel), by decide +kernel, by decide +kernel⟩,
   controlInv_genState, by decide +kernel, by decide +kernel, _, eq_next_after (by decide +kernel), by decide +kernel⟩

theorem witness_FtCountSteps :
    (started 0x11000000 State.reset).ph = .start ∧
    (let s := running 0x11000000 State.reset; s.ph = .run ∧ s.cnt = 0) ∧
    (let s := running 0x11000000 { State.reset with cnt := 5 }; s.ph = .run ∧ s.cnt ≠ 0 ∧ s.inq = []) ∧
    (let s := running 0x11000000 { table [(0x61, 0xFFFFFFFF)] with cnt := 1, inq := [0x61] };
      s.ph = .run ∧ s.cnt ≠ 0 ∧ s.inq = 0x61 :: [] ∧ (ftAt s 0x61).count.toNat = 2 ^ 32 - 1) ∧
    (let s := running 0x11000000 { table [(0x61, 0xFFFFFFFE)] with cnt := 1, inq := [0x61] };
      s.ph = .run ∧ s.cnt ≠ 0 ∧ s.inq = 0x61 :: [] ∧ (ftAt s 0x61).count.toNat ≠ 2 ^ 32 - 1) := by decide +kernel

theorem witness_FtCountCountsItsBytes :
    let s := running 0x11000000 { table [(0x61, 0xFFFFFFFE)] with cnt := 2, inq := [0x61, 0x62, 0x63] }
    s.busy = true ∧ s.ph = .run ∧ s.cur = 0x11000000 ∧ s.inq = [0x61, 0x62] ++ [0x63] ∧ s.cnt.toNat = [0x61, 0x62].length ∧
    ∀ b : Byte, (ftAt s b).count.toNat + ([0x61, 0x62] : List Byte).count b < 2 ^ 32 := by decide +kernel

theorem witness_FtLoadAddsOneEntry : (ftAt tableA 0x62).present = true ∧ (ftAt tableA 0x64).present = false := by decide +kernel

theorem witness_FtGetFindsTheKthPresentEntry :
    (Finset.univ.filter fun b : Byte => (ftAt tableA b).present = true).card ≤ (3 : BitVec 9).toNat ∧
    (2 : BitVec 9).toNat < (Finset.univ.filter fun b : Byte => (ftAt tableA b).present = true).card := by decide +kernel

theorem witness_TreeBuildMergesTheLeastPairs : nSym State.reset = 0 ∧ nSym tableA ≠ 0 ∧
    (after (exec .treeBuild tableA)).nodeCount.toNat = 5 := by decide +kernel

theorem witness_TreeBuildGivesATree : nSym tableA ≠ 0 ∧ (∃ t, exec .treeBuild tableA = .next t) ∧ (2 : Fin 511).val < nSym tableA :=
  ⟨by decide +kernel, ⟨_, eq_next_after (by decide +kernel)⟩, by decide +kernel⟩

/-- The same pairs loaded in another order, beside an absent symbol with another count. -/
def tableA' : State := ftSet 0x64 { present := false, count := 9 } (table [(0x63, 1), (0x61, 3), (0x62, 2)])

theorem witness_TreeDependsOnlyOnThePresentPairs :
    (∀ b : Byte, (ftAt tableA b).present = (ftAt tableA' b).present ∧
      ((ftAt tableA b).present = true → (ftAt tableA b).count = (ftAt tableA' b).count)) ∧
    nSym tableA ≠ 0 ∧ (∃ t, exec .treeBuild tableA = .next t) ∧ (∃ t, exec .treeBuild tableA' = .next t) :=
  ⟨by decide +kernel, by decide +kernel, ⟨_, eq_next_after (by decide +kernel)⟩, ⟨_, eq_next_after (by decide +kernel)⟩⟩

theorem witness_CodeGenGivesTheTreePaths : tableA.treeValid = false ∧ (treeA.treeValid = true ∧ TreeShape treeA) ∧
    (treeZ.treeValid = true ∧ TreeShape treeZ) ∧ (ftAt treeA 0x62).present = true ∧ (ftAt treeA 0x64).present = false :=
  ⟨by decide +kernel, ⟨by decide +kernel, treeShape_treeA⟩, ⟨by decide +kernel, treeShape_treeZ⟩, by decide +kernel, by decide +kernel⟩

theorem witness_CodesArePrefixFree : treeA.treeValid = true ∧ TreeShape treeA ∧ exec .codeGen treeA = .next codesA ∧
    (ftAt treeA 0x61).present = true ∧ (0x61 : Byte) ≠ 0x62 ∧ codeString codesA 0x61 ≠ [] ∧ codeString codesA 0x62 ≠ [] :=
  ⟨by decide +kernel, treeShape_treeA, eq_next_after (by decide +kernel), by decide +kernel, by decide, by decide +kernel, by decide +kernel⟩

theorem witness_DecodingInvertsTheCodes :
    (treeA.treeValid = true ∧ TreeShape treeA ∧ exec .codeGen treeA = .next codesA ∧
      ∀ b ∈ ([0x61, 0x63, 0x62] : List Byte), (codeAt codesA b).len ≠ 0) ∧
    (treeZ.treeValid = true ∧ TreeShape treeZ ∧ exec .codeGen treeZ = .next (after (exec .codeGen treeZ)) ∧
      ∀ b ∈ ([0x7A, 0x7A] : List Byte), (codeAt (after (exec .codeGen treeZ)) b).len ≠ 0) :=
  ⟨⟨by decide +kernel, treeShape_treeA, eq_next_after (by decide +kernel), by decide +kernel⟩,
   ⟨by decide +kernel, treeShape_treeZ, eq_next_after (by decide +kernel), by decide +kernel⟩⟩

theorem witness_NodeReadAnswersTheNode : tableA.treeValid = false ∧
    (treeA.treeValid = true ∧ treeA.nodeCount.toNat ≤ (5 : NodeIdx).toNat) ∧
    (treeA.treeValid = true ∧ (4 : NodeIdx).toNat < treeA.nodeCount.toNat ∧ (4 : NodeIdx).toNat < 511) := by decide +kernel

theorem witness_CodeReadAnswersOneWord : treeA.codesValid = false ∧ codesA.codesValid = true := by decide +kernel

theorem witness_EncInitOpensAStream : treeA.codesValid = false ∧ codesA.codesValid = true := by decide +kernel

theorem witness_EncDataSteps :
    (let s := started 0x31000000 codesA; s.ph = .start ∧ s.mode ≠ .enc) ∧
    (let s := started 0x31000000 { codesA with mode := .enc }; s.ph = .start ∧ s.mode = .enc) ∧
    (let s := running 0x31000000 { codesA with encAccN := 8, outq := List.replicate 16 0 };
      s.ph = .run ∧ s.encAccN = 8 ∧ s.outq.length = s.cfg.outDepth.toNat) ∧
    (let s := running 0x31000000 { codesA with encAccN := 8, outq := List.replicate 15 0 };
      s.ph = .run ∧ s.encAccN = 8 ∧ s.outq.length ≠ s.cfg.outDepth.toNat) ∧
    (let s := running 0x31000000 { codesA with encAccN := 7, encSrN := 255 }; s.ph = .run ∧ s.encAccN ≠ 8 ∧ s.encSrN ≠ 0) ∧
    (let s := running 0x31000000 { codesA with cnt := 1 };
      s.ph = .run ∧ s.encAccN ≠ 8 ∧ s.encSrN = 0 ∧ s.cnt ≠ 0 ∧ s.inq = []) ∧
    (let s := running 0x31000000 { codesA with cnt := 1, inq := [0x64] };
      s.ph = .run ∧ s.encAccN ≠ 8 ∧ s.encSrN = 0 ∧ s.cnt ≠ 0 ∧ s.inq = 0x64 :: [] ∧ (codeAt s 0x64).len = 0) ∧
    (let s := running 0x31000000 { codesA with cnt := 1, inq := [0x61] };
      s.ph = .run ∧ s.encAccN ≠ 8 ∧ s.encSrN = 0 ∧ s.cnt ≠ 0 ∧ s.inq = 0x61 :: [] ∧ (codeAt s 0x61).len ≠ 0) ∧
    (let s := running 0x31000000 codesA; s.ph = .run ∧ s.encAccN ≠ 8 ∧ s.encSrN = 0 ∧ s.cnt = 0) := by decide +kernel

theorem witness_EncFlushSteps :
    (let s := started 0x32000000 codesA; s.ph = .start ∧ s.mode ≠ .enc) ∧
    (let s := started 0x32000000 { codesA with mode := .enc }; s.ph = .start ∧ s.mode = .enc) ∧
    (let s := running 0x32000000 { codesA with encAccN := 1, outq := List.replicate 16 0 };
      s.ph = .run ∧ s.encAccN ≠ 0 ∧ s.outq.length = s.cfg.outDepth.toNat) ∧
    (let s := running 0x32000000 { codesA with encAccN := 7 };
      s.ph = .run ∧ s.encAccN ≠ 0 ∧ s.outq.length ≠ s.cfg.outDepth.toNat) ∧
    (let s := running 0x32000000 codesA; s.ph = .run ∧ s.encAccN = 0) := by decide +kernel

theorem witness_EncDataStepKeepsTheBitSequence :
    let s := running 0x31000000 { codesA with cnt := 1, inq := [0x62] }
    s.ph = .run ∧ goesOn (exec .encData s) = true ∧ (after (exec .encData s)).err = s.err := by decide +kernel

/-- One code bit left to shift, no byte to come: two steps end the command. -/
def encodeState : State := running 0x31000000 { codesA with done := false, mode := .enc, encSr := 1, encSrN := 1 }

theorem witness_EncDataPacksTheCodesInOrder : encodeState.busy = true ∧ encodeState.ph = .run ∧ encodeState.cur = 0x31000000 ∧
    encodeState.err = false ∧ ∃ t, engineTimes 2 encodeState = .next t ∧ t.busy = false ∧ t.err = false :=
  ⟨by decide +kernel, by decide +kernel, by decide +kernel, by decide +kernel, _, eq_next_after (by decide +kernel),
   by decide +kernel, by decide +kernel⟩

theorem witness_FlushPadsToAByte : ControlInv flushState ∧ flushState.ph = .run ∧ flushState.cur = 0x32000000 ∧
    flushState.outq.length ≠ flushState.cfg.outDepth.toNat :=
  ⟨controlInv_flushState, by decide +kernel, by decide +kernel, by decide +kernel⟩

theorem witness_DecInitOpensADecode : tableA.treeValid = false ∧
    (treeA.treeValid = true ∧ 7 < (8 : Byte).toNat) ∧
    (treeA.treeValid = true ∧ (7 : Byte).toNat ≤ 7 ∧ treeA.carg = 0) ∧
    (let s := { treeA with carg := 1 }; s.treeValid = true ∧ (7 : Byte).toNat ≤ 7 ∧ s.carg ≠ 0) := by decide +kernel

theorem witness_DecDataSteps :
    (let s := started 0x41000000 treeA; s.ph = .start ∧ s.mode ≠ .dec) ∧
    (let s := started 0x41000000 { treeA with mode := .dec, decRem := 2, carg := 3 };
      s.ph = .start ∧ s.mode = .dec ∧ s.decRem.toNat < s.carg.toNat) ∧
    (let s := started 0x41000000 { treeA with mode := .dec, decRem := 2, carg := 2 };
      s.ph = .start ∧ s.mode = .dec ∧ s.carg.toNat ≤ s.decRem.toNat) ∧
    (let s := running 0x41000000 { treeZ with decSh := 0x80, decShN := 4 };
      s.ph = .run ∧ s.decShN ≠ 0 ∧ ∃ e ∈ nodeAt s s.decWalk, e.leaf = true ∧ s.decSh.getLsbD 7 = true) ∧
    (let s := running 0x41000000 { treeZ with decShN := 8, outq := List.replicate 16 0 };
      s.ph = .run ∧ s.decShN ≠ 0 ∧ (∃ e ∈ nodeAt s s.decWalk, e.leaf = true ∧ s.decSh.getLsbD 7 = false) ∧
      s.outq.length = s.cfg.outDepth.toNat) ∧
    (let s := running 0x41000000 { treeA with decWalk := 4, decShN := 1 };
      s.ph = .run ∧ s.decShN ≠ 0 ∧ (∃ e ∈ nodeAt s s.decWalk, e.leaf = false ∧ s.decSh.getLsbD 7 = false ∧
        ∃ f ∈ nodeAt s e.left, f.leaf = true) ∧ s.outq.length ≠ s.cfg.outDepth.toNat) ∧
    (let s := running 0x41000000 { treeA with decWalk := 4, decSh := 0xFF, decShN := 8 };
      s.ph = .run ∧ s.decShN ≠ 0 ∧ ∃ e ∈ nodeAt s s.decWalk, e.leaf = false ∧ s.decSh.getLsbD 7 = true ∧
        ∃ f ∈ nodeAt s e.right, f.leaf = false) ∧
    (let s := running 0x41000000 { treeA with cnt := 1 }; s.ph = .run ∧ s.decShN = 0 ∧ s.cnt ≠ 0 ∧ s.inq = []) ∧
    (let s := running 0x41000000 { treeA with cnt := 1, decRem := 1, pad := 7, inq := [0x7F] };
      s.ph = .run ∧ s.decShN = 0 ∧ s.cnt ≠ 0 ∧ s.inq = 0x7F :: []) ∧
    (let s := running 0x41000000 treeA; s.ph = .run ∧ s.decShN = 0 ∧ s.cnt = 0) := by decide +kernel

theorem witness_DecFinishChecksTheEnd : treeA.mode ≠ .dec ∧
    (let s := { treeA with mode := .dec, decRem := 1 }; s.mode = .dec ∧ s.decRem ≠ 0) ∧
    (let s := { treeA with mode := .dec, decWalk := 3 }; s.mode = .dec ∧ s.decRem = 0 ∧ s.decWalk ≠ s.root) ∧
    (let s := { treeZ with mode := .dec, decShN := 4 }; s.mode = .dec ∧ s.decRem = 0 ∧ s.decShN ≠ 0) ∧
    (let s := { treeA with mode := .dec, decWalk := 4 };
      s.mode = .dec ∧ s.decRem = 0 ∧ s.decShN = 0 ∧ s.decWalk = s.root) := by decide +kernel

theorem witness_DecDataDecodesThePayloadBits : Inv decodeState ∧ decodeState.busy = true ∧ decodeState.ph = .run ∧
    decodeState.cur = 0x41000000 ∧ decodeState.err = false ∧
    ∃ t, engineTimes 2 decodeState = .next t ∧ t.busy = false ∧ t.err = false :=
  ⟨inv_decodeState, by decide +kernel, by decide +kernel, by decide +kernel, by decide +kernel, _,
   eq_next_after (by decide +kernel), by decide +kernel, by decide +kernel⟩

theorem witness_EveryStepKeepsTheControlInvariant : ControlInv flushState ∧ ∃ t, step flushState = .next t :=
  ⟨controlInv_flushState, _, eq_next_after (by decide +kernel)⟩

theorem witness_EveryStepKeepsTheInvariant : Inv decodeState ∧ ∃ t, step decodeState = .next t :=
  ⟨inv_decodeState, _, eq_next_after (by decide +kernel)⟩

theorem witness_NoStepStopsUnderTheInvariant : Inv decodeState := inv_decodeState

theorem witness_StopsOutsideTheInvariant :
    (let s := running 0 State.reset; s.busy = true ∧ s.ph = .run ∧ decode s.cur = .ok .nop ∧ streaming .nop = false) ∧
    (let s := running 0x41000000 { treeA with decWalk := 511, decShN := 1 };
     s.ph = .run ∧ s.decShN ≠ 0 ∧ s.decWalk = 511) ∧
    (let s := { treeA with root := 511 }; s.treeValid = true ∧ s.root = 511) ∧
    (let s := { State.reset with treeValid := true };
     s.treeValid = true ∧ ∃ e ∈ nodeAt s s.root, e.leaf = false ∧ e.left = s.root) ∧ Inv decodeState :=
  ⟨by decide +kernel, by decide +kernel, by decide +kernel, by decide +kernel, inv_decodeState⟩

theorem witness_DecRemOnlyDecreases :
    (ControlInv decInitState ∧ applyEvent .engine decInitState = .next (after (applyEvent .engine decInitState)) ∧
      decInitState.decRem.toNat < (after (applyEvent .engine decInitState)).decRem.toNat) ∧
    (ControlInv decodeState ∧ (∀ p, decode decodeState.cur ≠ .ok (.decInit p)) ∧ ∃ t, step decodeState = .next t) :=
  ⟨⟨controlInv_decInitState, eq_next_after (by decide +kernel), by decide +kernel⟩,
   inv_decodeState.control, by decide +kernel, _, eq_next_after (by decide +kernel)⟩

theorem witness_NoStaleTreeOrCodes : ControlInv decodeState ∧
    (∃ t, engineStep decodeState = .next t ∧ t.treeValid = true) ∧
    ControlInv flushState ∧ ∃ t, engineStep flushState = .next t ∧ t.codesValid = true :=
  ⟨inv_decodeState.control, ⟨_, eq_next_after (by decide +kernel), by decide +kernel⟩, controlInv_flushState,
   ⟨_, eq_next_after (by decide +kernel), by decide +kernel⟩⟩

theorem witness_EngineTakesFromInAndAddsToOut : (∃ t, engineStep decodeState = .next t) ∧
    ∀ i o, decode decodeState.cur ≠ .ok (.fifoClr i o) :=
  ⟨⟨_, eq_next_after (by decide +kernel)⟩, by decide +kernel⟩

theorem witness_ContainerRoundTrip : 7 ≤ 7 ∧ 1 ≤ [((0x61 : Byte), (0xFFFFFFFF : Word))].length ∧
    [((0x61 : Byte), (0xFFFFFFFF : Word))].length ≤ 256 ∧ 1 ≤ [(0x1F : Byte)].length ∧ [(0x1F : Byte)].length ≤ 2 ^ 32 - 1 := by
  decide

/-- A container of table size 1 with `k` payload bytes. -/
def containerOf (k : Nat) : List Byte := [7, 0, 0, 0, 1, 0, 0, 0, 0x61, 0, 0, 0, 0] ++ List.replicate k 0

theorem containerOf_header (k : Nat) : memRead (containerOf k) 0 4 = 7 ∧ memRead (containerOf k) 4 4 = 1 ∧
    (containerOf k).length = 13 + k := by
  refine ⟨by simp [memRead, containerOf, leValue], by simp [memRead, containerOf, leValue], ?_⟩
  simp [containerOf]
  omega

/-- V7.2: the first seven bytes of the "aaabbc" container; then an accepted one, and one whose 2^32 payload bytes
are one too many (R139). -/
theorem witness_DeserializeChecks : deserialize [7, 0, 0, 0, 3, 0, 0] = .error .corruptContainer ∧
    deserialize [7, 0, 0, 0, 1, 0, 0, 0, 0x61, 3, 0, 0, 0, 0x1F] = .ok { pad := 7, n := 1, p := 1 } ∧
    ∃ c : List Byte, 8 ≤ c.length ∧ memRead c 0 4 ≤ 7 ∧ 1 ≤ memRead c 4 4 ∧ memRead c 4 4 ≤ 256 ∧
      2 ^ 32 - 1 < c.length - 8 - 5 * memRead c 4 4 := by
  refine ⟨by decide +kernel, by decide +kernel, ?_⟩
  have key : ∀ k : Nat, 2 ^ 32 - 1 < k → ∃ c : List Byte, 8 ≤ c.length ∧ memRead c 0 4 ≤ 7 ∧ 1 ≤ memRead c 4 4 ∧
      memRead c 4 4 ≤ 256 ∧ 2 ^ 32 - 1 < c.length - 8 - 5 * memRead c 4 4 := by
    intro k hk
    obtain ⟨h0, h4, hl⟩ := containerOf_header k
    exact ⟨containerOf k, by omega, by omega, by omega, by omega, by omega⟩
  exact key (2 ^ 32) (by omega)

/-- A call after a NOP that is over; NOP and a read, NOP alone, and a line with a wide operand as scripts. -/
theorem witness_CallsGoOnAfterDoneAndScriptsEndQuiescent :
    (runFw (waitOk 1) ⟨{ State.reset with done := true }, []⟩).1.isOk = true ∧
    (runFw endOfSequence ⟨{ State.reset with done := true }, []⟩).1.isOk = true ∧
    (match (runFw (compress 20 [0x7A]) ⟨State.reset, []⟩).1 with
      | .ok c => c == [7, 0, 0, 0, 1, 0, 0, 0, 0x7A, 1, 0, 0, 0, 0]
      | .error _ => false) = true ∧
    (match (runFw (decompress 20 [7, 0, 0, 0, 1, 0, 0, 0, 0x7A, 1, 0, 0, 0, 0]) ⟨State.reset, []⟩).1 with
      | .ok out => out == [0x7A]
      | .error _ => false) = true ∧
    (match runScript 0 [.nop, .rd .id] ⟨State.reset, []⟩ with | .finished d => d.hpu.done | _ => false) = true ∧
    (match runScript 0 [.nop] ⟨State.reset, []⟩ with | .unfinished d => d.hpu.busy | _ => false) = true ∧
    Script.wellFormed [.ftGet 512] = false := by decide +kernel

/-- R12, R140: a hardware reset between a NOP's acceptance and the read of STATUS ends the call (log 17). -/
theorem test_waitOk_reset : (match (runFw (waitOk 1) ⟨started 0 State.reset, [[.hwReset]]⟩).1 with
    | .error (.report c) => c == .hpuFault
    | _ => false) = true := by decide +kernel
/-- R140, R144: a hardware reset after the last `WAIT` of a call is seen at its end (log 17). -/
theorem test_endOfSequence_reset : (match (runFw endOfSequence ⟨{ State.reset with done := true }, [[.hwReset]]⟩).1 with
    | .error (.report c) => c == .hpuFault
    | _ => false) = true := by decide +kernel
/-- R138 with REJ = 1 as well: the ERRCODE gives the condition, and the HPU keeps its state (log 17). -/
theorem test_waitOk_err_and_rej :
    let r := runFw (waitOk 1) ⟨{ State.reset with err := true, rej := true, errCode := 0x09 }, []⟩
    (match r.1 with | .error (.report c) => c == .corruptContainer | _ => false) = true ∧ r.2.hpu.rej = true := by
  decide +kernel

end Sys2Proof.Tests
end

section
/-! SUPPORT. The rules about the register window and about what an engine step leaves: a register by its slot, the
layout of STATUS and TREE_INFO, the reset state, one inversion lemma per command, and the three ways an engine step
leaves its command. -/

namespace Sys2Proof.Machine

/-! ### The register window (R26, R58, R60) -/

section
variable (off v : Word) (r : Reg) (s : State)

/-- The offset of a register selects it (R26). -/
theorem regAt_regOffset : regAt (regOffset r) = some r := by cases r <;> decide

/-- A register found at an offset stands in the slot of that offset (R58). -/
theorem slotOf_of_regAt {off : Word} {r : Reg} (h : regAt off = some r) : slotOf (regOffset r) = slotOf off := by
  simpa using List.find?_some h

theorem busReadValue_regOffset : busReadValue (regOffset r) s = readReg r s := by
  simp [busReadValue, regAt_regOffset]

theorem busReadState_regOffset : busReadState (regOffset r) s = readEffect r s := by
  simp [busReadState, regAt_regOffset]

theorem busWrite_regOffset : busWrite (regOffset r) v s = writeReg r v s := by
  simp [busWrite, regAt_regOffset]

/-- What a host write can do (R29 to R32, R36, R60, R61): nothing, or the effect of one of the five writable
registers. -/
theorem busWrite_cases :
    busWrite off v s = s ∨
    (slotOf off = 0x02 ∧ busWrite off v s = { s with doneIe := v.getLsbD 0, errIe := v.getLsbD 1 }) ∨
    (slotOf off = 0x03 ∧ busWrite off v s = writeStatus v s) ∨
    (slotOf off = 0x04 ∧ busWrite off v s = writeCmd v s) ∨
    (slotOf off = 0x05 ∧ busWrite off v s = { s with arg := v }) ∨
    (slotOf off = 0x0C ∧ busWrite off v s = writeDataIn v s) := by
  unfold busWrite
  cases h : regAt off with
  | none => exact .inl rfl
  | some r =>
    have hslot := slotOf_of_regAt h
    cases r with
    | ctrl => exact .inr (.inl ⟨hslot.symm, rfl⟩)
    | status => exact .inr (.inr (.inl ⟨hslot.symm, rfl⟩))
    | cmd => exact .inr (.inr (.inr (.inl ⟨hslot.symm, rfl⟩)))
    | arg => exact .inr (.inr (.inr (.inr (.inl ⟨hslot.symm, rfl⟩))))
    | dataIn => exact .inr (.inr (.inr (.inr (.inr ⟨hslot.symm, rfl⟩))))
    | _ => exact .inl rfl

/-- A write outside the slots of CTRL, STATUS, CMD, ARG and DATA_IN is ignored (R60, R61). -/
theorem busWrite_of_slot_not_writable {off : Word} (h : slotOf off ∉ [0x02, 0x03, 0x04, 0x05, 0x0C]) :
    busWrite off v s = s := by
  simp only [List.mem_cons, List.not_mem_nil, or_false, not_or] at h
  obtain ⟨hctrl, hstatus, hcmd, harg, hdata⟩ := h
  rcases busWrite_cases off v s with h | ⟨h, -⟩ | ⟨h, -⟩ | ⟨h, -⟩ | ⟨h, -⟩ | ⟨h, -⟩
  · exact h
  · exact absurd h hctrl
  · exact absurd h hstatus
  · exact absurd h hcmd
  · exact absurd h harg
  · exact absurd h hdata

/-- A read leaves the state, or removes the oldest byte of OUT (R37, R63). -/
theorem busReadState_cases :
    busReadState off s = s ∨ (slotOf off = 0x0D ∧ busReadState off s = { s with outq := s.outq.tail }) := by
  unfold busReadState
  cases h : regAt off with
  | none => exact .inl rfl
  | some r =>
    have hslot := slotOf_of_regAt h
    cases r with
    | dataOut => exact .inr ⟨hslot.symm, rfl⟩
    | _ => exact .inl rfl

/-- What a CMD write does (R88): RESET acts, a rejected word sets REJ, any other word is accepted. -/
theorem writeCmd_cases :
    (v = resetWord ∧ writeCmd v s = resetState s) ∨
    (v ≠ resetWord ∧ (s.busy = true ∨ s.err = true) ∧ writeCmd v s = { s with rej := true }) ∨
    (v ≠ resetWord ∧ s.busy = false ∧ s.err = false ∧ writeCmd v s = acceptCommand v s) := by
  unfold writeCmd
  split
  · rename_i hv
    exact .inl ⟨hv, rfl⟩
  · rename_i hv
    split
    · rename_i hbusy
      exact .inr (.inl ⟨hv, by simpa using hbusy, rfl⟩)
    · rename_i hidle
      have hidle : s.busy = false ∧ s.err = false := by simpa using hidle
      exact .inr (.inr ⟨hv, hidle.1, hidle.2, rfl⟩)

theorem writeDataIn_of_full (h : inFull s = true) : writeDataIn v s = { s with inOvf := true } := by
  simp [writeDataIn, h]

theorem writeDataIn_of_not_full (h : inFull s = false) :
    writeDataIn v s = { s with inq := s.inq ++ [v.extractLsb' 0 8] } := by
  simp [writeDataIn, h]

/-- The effect of a STATUS write, field by field (R30, R152). -/
theorem writeStatus_eq : writeStatus v s = { s with
    done := if v.getLsbD 1 then false else s.done
    err := if v.getLsbD 2 then false else s.err
    errCode := if v.getLsbD 2 then 0 else s.errCode
    errInfo := if v.getLsbD 2 then 0 else s.errInfo
    inOvf := if v.getLsbD 9 then false else s.inOvf
    rej := if v.getLsbD 10 then false else s.rej } := by
  have hclear (b c : Bool) : (b && !c) = if c then false else b := by cases c <;> simp
  unfold writeStatus
  simp only [hclear]
  cases v.getLsbD 2 <;> rfl

end

/-! ### STATUS (R30) -/

section
variable (s : State)

theorem inEmpty_eq_decide : inEmpty s = decide (s.inq = []) := by
  rw [Bool.eq_iff_iff, inEmpty_iff, decide_eq_true_iff]

theorem outEmpty_eq_decide : outEmpty s = decide (s.outq = []) := by
  rw [Bool.eq_iff_iff, outEmpty_iff, decide_eq_true_iff]

/-- The one-bit fields of STATUS, by their bit numbers. -/
theorem statusWord_bits :
    (statusWord s).getLsbD 0 = s.busy ∧ (statusWord s).getLsbD 1 = s.done ∧ (statusWord s).getLsbD 2 = s.err ∧
    (statusWord s).getLsbD 3 = inFull s ∧ (statusWord s).getLsbD 4 = inEmpty s ∧
    (statusWord s).getLsbD 5 = outFull s ∧ (statusWord s).getLsbD 6 = outEmpty s ∧
    (statusWord s).getLsbD 7 = s.treeValid ∧ (statusWord s).getLsbD 8 = s.codesValid ∧
    (statusWord s).getLsbD 9 = s.inOvf ∧ (statusWord s).getLsbD 10 = s.rej ∧ (statusWord s).getLsbD 11 = false ∧
    (statusWord s).getLsbD 14 = decide (stallOf s = some .stallIn) ∧
    (statusWord s).getLsbD 15 = decide (stallOf s = some .stallOut) := by
  simp only [statusWord, BitVec.getLsbD_append, Nat.reduceLT, Nat.reduceSub, if_true, if_false, BitVec.getLsbD_ofBool,
    BitVec.getLsbD_zero, beq_eq_decide, decide_true, Bool.true_and, and_self]

theorem statusWord_mode : (statusWord s).extractLsb' 12 2 = modeBits s.mode := by
  simp only [statusWord, BitVec.extractLsb'_append_eq_of_le, Nat.reduceSub, Nat.reduceLeDiff,
    BitVec.extractLsb'_append_eq_right]

theorem statusWord_reserved : (statusWord s).extractLsb' 16 16 = 0#16 := by
  simp only [statusWord, BitVec.extractLsb'_append_eq_of_le, Nat.reduceSub, Nat.reduceLeDiff, BitVec.extractLsb'_zero]

end

/-! ### CTRL and DATA_OUT as read (R29, R37) -/

section
variable {s : State}

theorem ctrlWord_bits (errIe doneIe : Bool) :
    (zext (BitVec.ofBool errIe ++ BitVec.ofBool doneIe)).getLsbD 0 = doneIe ∧
    (zext (BitVec.ofBool errIe ++ BitVec.ofBool doneIe)).getLsbD 1 = errIe ∧
    (zext (BitVec.ofBool errIe ++ BitVec.ofBool doneIe)).extractLsb' 2 30 = 0 := by
  revert errIe doneIe
  decide

/-- The oldest byte of OUT is read with bit 8 set. -/
theorem dataOutWord_of_cons {b : Byte} {rest : List Byte} (h : s.outq = b :: rest) :
    dataOutWord s = 0x100 + zext b := by
  have happend : (1#1 ++ b).toNat = 256 + b.toNat := by
    rw [BitVec.toNat_append, ← Nat.shiftLeft_add_eq_or_of_lt b.isLt]
    rfl
  rw [dataOutWord, h]
  bv_omega

theorem dataOutWord_of_nil (h : s.outq = []) : dataOutWord s = 0 := by rw [dataOutWord, h]

end

/-! ### Reset (R56, R163) -/

section
variable (s : State)

theorem writeCmd_resetWord : writeCmd resetWord s = resetState s := if_pos rfl

theorem ftAt_resetState (b : Byte) : ftAt (resetState s) b = FtEntry.zero := Vector.getElem_replicate ..

/-- With depths of at least 1, STATUS reads the same after any reset as in `State.reset`: only IN_EMPTY and OUT_EMPTY
are set. -/
theorem statusWord_resetState (h : s.cfg.Valid) : statusWord (resetState s) = 0x00000050 := by
  obtain ⟨hin, hout⟩ := h
  have hinFull : inFull (resetState s) = false := by
    rw [Bool.eq_false_iff, Ne, inFull_iff]
    exact fun hd => hin (BitVec.eq_of_toNat_eq hd.symm)
  have houtFull : outFull (resetState s) = false := by
    rw [Bool.eq_false_iff, Ne, outFull_iff]
    exact fun hd => hout (BitVec.eq_of_toNat_eq hd.symm)
  have hsame : statusWord (resetState s) = statusWord State.reset := by
    unfold statusWord
    rw [hinFull, houtFull]
    rfl
  rw [hsame]
  decide

end

/-! ### TBL_SIZE and TREE_INFO (R39, R40) -/

section
variable (s : State)

/-- `n_sym` as a cardinality: the table read in order lists every symbol once. -/
theorem nSym_eq_card : nSym s = (Finset.univ.filter fun b : Byte => (ftAt s b).present = true).card := by
  have htable : s.ft.toList = (List.ofFn (BitVec.ofFin (w := 8))).map (ftAt s) := by
    rw [List.map_ofFn]
    exact List.ext_getElem (by rw [Vector.length_toList, List.length_ofFn]) fun i hi hi' => by
      rw [List.getElem_ofFn, Vector.getElem_toList]
      rfl
  have hall : (List.ofFn (BitVec.ofFin (w := 8))).toFinset = Finset.univ :=
    Finset.eq_univ_iff_forall.mpr fun b => List.mem_toFinset.mpr (List.mem_ofFn.mpr ⟨b.toFin, rfl⟩)
  have hnodup : (List.ofFn (BitVec.ofFin (w := 8))).Nodup :=
    List.nodup_ofFn.mpr fun a b h => BitVec.ofFin.inj h
  rw [← hall, hnodup.card_eq_countP, nSym, htable, List.countP_map]
  simp only [Function.comp_def, Bool.decide_eq_true]

theorem nSym_le : nSym s ≤ 256 := List.countP_le_length.trans_eq Vector.length_toList

/-- The fields of TREE_INFO while the tree is valid; the bits outside them are 0. -/
theorem treeInfoWord_of_valid (h : s.treeValid = true) :
    (treeInfoWord s).extractLsb' 0 9 = s.root ∧ (treeInfoWord s).extractLsb' 16 9 = s.nodeCount ∧
    (treeInfoWord s).extractLsb' 9 7 = 0 ∧ (treeInfoWord s).extractLsb' 25 7 = 0 := by
  have hword : treeInfoWord s = zext (s.nodeCount ++ 0#7 ++ s.root) := if_pos h
  rw [hword]
  refine ⟨?_, ?_, ?_, ?_⟩ <;> rw [BitVec.extractLsb'_setWidth_of_le (by decide)]
  · exact BitVec.extractLsb'_append_eq_right
  · exact (BitVec.extractLsb'_append_eq_of_le (by decide)).trans BitVec.extractLsb'_append_eq_left
  · exact (BitVec.extractLsb'_append_eq_of_le (by decide)).trans BitVec.extractLsb'_append_eq_right
  · rw [BitVec.extractLsb'_append_eq_of_le (by decide), BitVec.extractLsb'_append_eq_of_le (by decide)]
    exact BitVec.eq_of_toNat_eq (by simp [Nat.shiftRight_eq_div_pow]; omega)

end

/-! ### What each command can do

One inversion lemma per command with more than one outcome, in the order of the opcode table; the RUN steps have
theirs in Laws/Step. -/

section
variable {s t : State}

/-- FT_COUNT (R105): its start part, or a RUN step. -/
theorem execFtCount_cases (h : execFtCount s = .next t) :
    (s.ph = .start ∧ t = startStream s.carg (invalidate s)) ∨ (s.ph = .run ∧ ftCountRun s = .next t) := by
  unfold execFtCount at h
  split at h <;> rename_i hph
  · injection h with h
    exact .inl ⟨hph, h.symm⟩
  · exact .inr ⟨hph, h⟩

/-- FT_LOAD (R107): a symbol loaded twice raises; otherwise its entry is stored. -/
theorem execFtLoad_cases {sym : Byte} (h : execFtLoad sym s = .next t) :
    ((ftAt s sym).present = true ∧ t = raiseError .dupSymbol (zext sym) s) ∨
    ((ftAt s sym).present = false ∧ t = complete (invalidate (ftSet sym { present := true, count := s.carg } s))) := by
  unfold execFtLoad at h
  split at h <;> rename_i hp <;> injection h with h
  · exact .inl ⟨hp, h.symm⟩
  · exact .inr ⟨by simpa using hp, h.symm⟩

/-- FT_GET (R108): an index with no present entry raises; otherwise the entry is reported. -/
theorem execFtGet_cases {k : BitVec 9} (h : execFtGet k s = .next t) :
    ((presentEntries s.ft)[k.toNat]? = none ∧ t = raiseError .badIndex (zext k) s) ∨
    (∃ sym count, (presentEntries s.ft)[k.toNat]? = some (sym, count) ∧
      t = complete { s with result0 := zext sym, result1 := count }) := by
  unfold execFtGet at h
  split at h
  · rename_i hk
    injection h with h
    exact .inl ⟨hk, h.symm⟩
  · rename_i sym count hk
    injection h with h
    exact .inr ⟨sym, count, hk, h.symm⟩

/-- TREE_BUILD (R117): an empty table raises; otherwise the tree of its entries is stored. -/
theorem execTreeBuild_cases (h : execTreeBuild s = .next t) :
    (nSym s = 0 ∧ t = raiseError .emptyInput 0 s) ∨
    (nSym s ≠ 0 ∧ ∃ nodes root, buildTree (presentEntries s.ft) = (nodes, root) ∧
      t = complete { s with
        node := storeNodes nodes 0 s.node, root := root, nodeCount := BitVec.ofNat 9 nodes.length
        treeValid := true, codesValid := false, mode := .idle
        result0 := zext root, result1 := BitVec.ofNat 32 nodes.length }) := by
  unfold execTreeBuild at h
  split at h <;> rename_i hn <;> injection h with h
  · exact .inl ⟨hn, h.symm⟩
  · exact .inr ⟨hn, _, _, rfl, h.symm⟩

/-- CODE_GEN (R118): without a tree it raises; otherwise the codes of the paths are stored. -/
theorem execCodeGen_cases (h : execCodeGen s = .next t) :
    (s.treeValid = false ∧ t = raiseError .noTree 0 s) ∨
    (s.treeValid = true ∧ ∃ r ps, nodeAt s s.root = some r ∧ codePaths s r = some ps ∧
      t = complete { s with
        code := codeTable ps, codesValid := true, mode := .idle
        result0 := BitVec.ofNat 32 (longestCode (codeTable ps))
        result1 := BitVec.ofNat 32 (codeCount (codeTable ps)) }) := by
  unfold execCodeGen at h
  split at h
  · rename_i hv
    injection h with h
    exact .inl ⟨hv, h.symm⟩
  · rename_i hv
    split at h
    · injection h
    · rename_i r hr
      split at h
      · injection h
      · rename_i ps hps
        injection h with h
        exact .inr ⟨by simpa using hv, r, ps, hr, hps, h.symm⟩

/-- NODE_READ (R120): without a tree or past its nodes it raises; otherwise the entry is reported. -/
theorem execNodeRead_cases {i : NodeIdx} (h : execNodeRead i s = .next t) :
    (s.treeValid = false ∧ t = raiseError .noTree 0 s) ∨
    (s.treeValid = true ∧ s.nodeCount.toNat ≤ i.toNat ∧ t = raiseError .badIndex (zext i) s) ∨
    (s.treeValid = true ∧ i.toNat < s.nodeCount.toNat ∧ ∃ e, nodeAt s i = some e ∧
      t = complete { s with
        result0 := (zext (BitVec.ofBool e.leaf) <<< 31) ||| zext e.sym
        result1 := (zext e.right <<< 16) ||| zext e.left
        result2 := e.w.extractLsb' 0 32
        result3 := zext (e.w.extractLsb' 32 8) }) := by
  unfold execNodeRead at h
  split at h
  · rename_i hv
    injection h with h
    exact .inl ⟨hv, h.symm⟩
  · rename_i hv
    have hv : s.treeValid = true := by simpa using hv
    split at h
    · rename_i hi
      injection h with h
      exact .inr (.inl ⟨hv, hi, h.symm⟩)
    · rename_i hi
      split at h
      · injection h
      · rename_i e he
        injection h with h
        exact .inr (.inr ⟨hv, by omega, e, he, h.symm⟩)

/-- CODE_READ (R121): without codes it raises; otherwise a word of the code is reported. -/
theorem execCodeRead_cases {sym : Byte} {w : BitVec 3} (h : execCodeRead sym w s = .next t) :
    (s.codesValid = false ∧ t = raiseError .noCodes 0 s) ∨
    (s.codesValid = true ∧ t = complete { s with
      result0 := zext (codeAt s sym).len
      result1 := ((codeAt s sym).bits.setWidth 256).extractLsb' (32 * w.toNat) 32 }) := by
  unfold execCodeRead at h
  split at h <;> rename_i hv <;> injection h with h
  · exact .inl ⟨hv, h.symm⟩
  · exact .inr ⟨by simpa using hv, h.symm⟩

/-- ENC_INIT (R122): without codes it raises; otherwise an encoded stream is opened. -/
theorem execEncInit_cases (h : execEncInit s = .next t) :
    (s.codesValid = false ∧ t = raiseError .noCodes 0 s) ∨
    (s.codesValid = true ∧ t = complete { s with
      mode := .enc, encAcc := 0, encAccN := 0, encSr := 0, encSrN := 0, bitcnt := 0, pad := 0 }) := by
  unfold execEncInit at h
  split at h <;> rename_i hv <;> injection h with h
  · exact .inl ⟨hv, h.symm⟩
  · exact .inr ⟨by simpa using hv, h.symm⟩

/-- ENC_DATA (R123): its start part raises outside an encoded stream or takes the count; or a RUN step. -/
theorem execEncData_cases (h : execEncData s = .next t) :
    (s.ph = .start ∧ s.mode ≠ .enc ∧ t = raiseError .badMode (zext (modeBits s.mode)) s) ∨
    (s.ph = .start ∧ s.mode = .enc ∧ t = startStream s.carg s) ∨
    (s.ph = .run ∧ encDataRun s = .next t) := by
  unfold execEncData at h
  split at h <;> rename_i hph
  · split at h <;> rename_i hm <;> injection h with h
    · exact .inl ⟨hph, hm, h.symm⟩
    · exact .inr (.inl ⟨hph, by simpa using hm, h.symm⟩)
  · exact .inr (.inr ⟨hph, h⟩)

/-- ENC_FLUSH (R124): its start part raises outside an encoded stream or begins; or a RUN step. -/
theorem execEncFlush_cases (h : execEncFlush s = .next t) :
    (s.ph = .start ∧ s.mode ≠ .enc ∧ t = raiseError .badMode (zext (modeBits s.mode)) s) ∨
    (s.ph = .start ∧ s.mode = .enc ∧ t = { s with ph := .run }) ∨
    (s.ph = .run ∧ encFlushRun s = .next t) := by
  unfold execEncFlush at h
  split at h <;> rename_i hph
  · split at h <;> rename_i hm <;> injection h with h
    · exact .inl ⟨hph, hm, h.symm⟩
    · exact .inr (.inl ⟨hph, by simpa using hm, h.symm⟩)
  · exact .inr (.inr ⟨hph, h⟩)

/-- DEC_INIT (R128): one of its three checks raises, or a decoding is opened. -/
theorem execDecInit_cases {padf : Byte} (h : execDecInit padf s = .next t) :
    (s.treeValid = false ∧ t = raiseError .noTree 0 s) ∨
    (s.treeValid = true ∧ 7 < padf.toNat ∧ t = raiseError .badPad (zext padf) s) ∨
    (s.treeValid = true ∧ padf.toNat ≤ 7 ∧ s.carg = 0 ∧ t = raiseError .badLen 0 s) ∨
    (s.treeValid = true ∧ padf.toNat ≤ 7 ∧ s.carg ≠ 0 ∧ t = complete { s with
      mode := .dec, decRem := s.carg, pad := padf.extractLsb' 0 3, decWalk := s.root, decSh := 0, decShN := 0
      symcnt := 0 }) := by
  unfold execDecInit at h
  split at h
  · rename_i hv
    injection h with h
    exact .inl ⟨hv, h.symm⟩
  · rename_i hv
    have hv : s.treeValid = true := by simpa using hv
    split at h
    · rename_i hp
      injection h with h
      exact .inr (.inl ⟨hv, hp, h.symm⟩)
    · rename_i hp
      split at h <;> rename_i hc <;> injection h with h
      · exact .inr (.inr (.inl ⟨hv, by omega, hc, h.symm⟩))
      · exact .inr (.inr (.inr ⟨hv, by omega, hc, h.symm⟩))

/-- DEC_DATA (R129): its start part raises outside a decoding or past the payload, or takes the count; or a RUN
step. -/
theorem execDecData_cases (h : execDecData s = .next t) :
    (s.ph = .start ∧ s.mode ≠ .dec ∧ t = raiseError .badMode (zext (modeBits s.mode)) s) ∨
    (s.ph = .start ∧ s.mode = .dec ∧ s.decRem.ult s.carg = true ∧ t = raiseError .decOverrun s.carg s) ∨
    (s.ph = .start ∧ s.mode = .dec ∧ s.decRem.ult s.carg = false ∧ t = startStream s.carg s) ∨
    (s.ph = .run ∧ decDataRun s = .next t) := by
  unfold execDecData at h
  split at h <;> rename_i hph
  · split at h
    · rename_i hm
      injection h with h
      exact .inl ⟨hph, hm, h.symm⟩
    · rename_i hm
      have hm : s.mode = .dec := by simpa using hm
      split at h <;> rename_i hr <;> injection h with h
      · exact .inr (.inl ⟨hph, hm, hr, h.symm⟩)
      · exact .inr (.inr (.inl ⟨hph, hm, by simpa using hr, h.symm⟩))
  · exact .inr (.inr (.inr ⟨hph, h⟩))

/-- DEC_FINISH (R130): one of its three checks raises, or the decoding is closed. -/
theorem execDecFinish_cases (h : execDecFinish s = .next t) :
    (s.mode ≠ .dec ∧ t = raiseError .badMode (zext (modeBits s.mode)) s) ∨
    (s.mode = .dec ∧ s.decRem ≠ 0 ∧ t = raiseError .decTrunc s.decRem s) ∨
    (s.mode = .dec ∧ s.decRem = 0 ∧ (s.decShN ≠ 0 ∨ s.decWalk ≠ s.root) ∧
      t = raiseError .decPartial (zext s.decWalk) s) ∨
    (s.mode = .dec ∧ s.decRem = 0 ∧ s.decShN = 0 ∧ s.decWalk = s.root ∧
      t = complete { s with mode := .idle, result0 := s.symcnt }) := by
  unfold execDecFinish at h
  split at h
  · rename_i hm
    injection h with h
    exact .inl ⟨hm, h.symm⟩
  · rename_i hm
    have hm : s.mode = .dec := by simpa using hm
    split at h
    · rename_i hr
      injection h with h
      exact .inr (.inl ⟨hm, hr, h.symm⟩)
    · rename_i hr
      have hr : s.decRem = 0 := by simpa using hr
      split at h
      · rename_i hw
        injection h with h
        exact .inr (.inr (.inl ⟨hm, hr, hw, h.symm⟩))
      · rename_i hw
        injection h with h
        have hw : s.decShN = 0 ∧ s.decWalk = s.root := by simpa using hw
        exact .inr (.inr (.inr ⟨hm, hr, hw.1, hw.2, h.symm⟩))

end

/-! ### How an engine step leaves its command -/

/-- The state that no engine step writes: the FIFO depths, what only host accesses write, and the latched
command. -/
structure EngineFrame (s t : State) : Prop where
  cfg : t.cfg = s.cfg
  doneIe : t.doneIe = s.doneIe
  errIe : t.errIe = s.errIe
  inOvf : t.inOvf = s.inOvf
  rej : t.rej = s.rej
  arg : t.arg = s.arg
  cur : t.cur = s.cur
  carg : t.carg = s.carg
  events : t.events = s.events
  reads : t.reads = s.reads

/-- A change of the data path, the RESULT registers, PH and CNT alone: besides the engine's frame, the flags BUSY,
DONE, ERR and the error record stay. -/
structure DataStep (s t : State) : Prop where
  cfg : t.cfg = s.cfg
  doneIe : t.doneIe = s.doneIe
  errIe : t.errIe = s.errIe
  busy : t.busy = s.busy
  done : t.done = s.done
  err : t.err = s.err
  inOvf : t.inOvf = s.inOvf
  rej : t.rej = s.rej
  arg : t.arg = s.arg
  errCode : t.errCode = s.errCode
  errInfo : t.errInfo = s.errInfo
  cur : t.cur = s.cur
  carg : t.carg = s.carg
  events : t.events = s.events
  reads : t.reads = s.reads

/-- How many of RESULT0..3, counted from RESULT0, a command's rule names (R35). -/
def resultsNamed : Instr → Nat
  | .decFinish => 1
  | .ftGet _ | .ftRead _ | .treeBuild | .codeGen | .codeRead _ _ => 2
  | .encFlush => 3
  | .nodeRead _ => 4
  | .nop | .reset | .fifoClr _ _ | .ftClear | .ftCount | .ftLoad _ | .encInit | .encData | .decInit _ | .decData => 0

/-- The RESULT registers from the `n`-th on keep their values. -/
structure KeepsResultsFrom (n : Nat) (s t : State) : Prop where
  result0 : n ≤ 0 → t.result0 = s.result0
  result1 : n ≤ 1 → t.result1 = s.result1
  result2 : n ≤ 2 → t.result2 = s.result2
  result3 : n ≤ 3 → t.result3 = s.result3

/-- The three ways an engine step leaves command `i` (R93 to R95): in an error that discards the rest of the step,
completed after writing data and the RESULT registers its rule names, or still running. -/
inductive StepEnding (i : Instr) (s : State) : State → Prop
  | raises (c : ErrCode) (info : Word) : StepEnding i s (raiseError c info s)
  | completes {u : State} (data : DataStep s u) (results : KeepsResultsFrom (resultsNamed i) s u) :
      StepEnding i s (complete u)
  | continues {t : State} (data : DataStep s t) (results : KeepsResultsFrom 0 s t) : StepEnding i s t

theorem DataStep.refl (s : State) : DataStep s s := by constructor <;> rfl
theorem KeepsResultsFrom.refl (n : Nat) (s : State) : KeepsResultsFrom n s s := by constructor <;> intro <;> rfl

section
variable {i : Instr} {s t : State}

theorem StepEnding.unchanged : StepEnding i s s := .continues (.refl s) (.refl 0 s)

theorem StepEnding.completesUnchanged : StepEnding i s (complete s) := .completes (.refl s) (.refl _ s)

/-- FT_COUNT's RUN step (R105) writes FT, IN and CNT only. -/
theorem ftCountRun_ending (h : ftCountRun s = .next t) : StepEnding .ftCount s t := by
  rcases ftCountRun_cases h with ⟨-, rfl⟩ | ⟨-, -, rfl⟩ | ⟨b, -, -, -, -, rfl⟩ | ⟨b, rest, -, -, -, rfl⟩
  · exact .completesUnchanged
  · exact .unchanged
  · exact .raises ..
  · exact .continues (by constructor <;> rfl) (by constructor <;> intro <;> rfl)

/-- ENC_DATA's RUN step (R123) writes the packer, IN, OUT and CNT only. -/
theorem encDataRun_ending (h : encDataRun s = .next t) : StepEnding .encData s t := by
  rcases encDataRun_cases h with ⟨-, -, rfl⟩ | ⟨-, -, rfl⟩ | ⟨-, -, rfl⟩ | ⟨-, -, -, -, rfl⟩ |
    ⟨b, -, -, -, -, -, -, rfl⟩ | ⟨b, rest, -, -, -, -, -, rfl⟩ | ⟨-, -, -, rfl⟩
  case inl | inr.inr.inr.inl => exact .unchanged
  case inr.inr.inr.inr.inl => exact .raises ..
  case inr.inr.inr.inr.inr.inr => exact .completesUnchanged
  all_goals exact .continues (by constructor <;> rfl) (by constructor <;> intro <;> rfl)

/-- ENC_FLUSH's RUN step (R124) waits, or closes the stream and writes RESULT0..2. -/
theorem encFlushRun_ending (h : encFlushRun s = .next t) : StepEnding .encFlush s t := by
  rcases encFlushRun_cases h with ⟨-, -, rfl⟩ | ⟨-, -, rfl⟩ | ⟨-, rfl⟩
  · exact .unchanged
  all_goals exact .completes (by constructor <;> rfl) (by constructor <;> simp [resultsNamed])

/-- DEC_DATA's RUN step (R129) writes the decoder, IN, OUT and CNT only. -/
theorem decDataRun_ending (h : decDataRun s = .next t) : StepEnding .decData s t := by
  rcases decDataRun_cases h with ⟨-, -, rfl⟩ | ⟨x, -, -, -, rfl⟩ | ⟨x, -, -, -, rfl⟩ | ⟨nxt, -, -, rfl⟩ |
    ⟨-, -, -, rfl⟩ | ⟨b, rest, -, -, -, rfl⟩ | ⟨-, -, rfl⟩
  case inl => exact .raises ..
  case inr.inl | inr.inr.inr.inr.inl => exact .unchanged
  case inr.inr.inr.inr.inr.inr => exact .completesUnchanged
  all_goals exact .continues (by constructor <;> rfl) (by constructor <;> intro <;> rfl)

/-- Every command but RESET leaves its engine step in one of the three ways. -/
theorem exec_ending (hi : i ≠ .reset) (h : exec i s = .next t) : StepEnding i s t := by
  cases i with
  | reset => exact absurd rfl hi
  | nop | ftClear | ftRead | fifoClr =>
    injection h with h
    subst h
    exact .completes (by constructor <;> rfl) (by constructor <;> simp [resultsNamed])
  | ftCount =>
    rcases execFtCount_cases h with ⟨-, rfl⟩ | ⟨-, h⟩
    · exact .continues (by constructor <;> rfl) (by constructor <;> intro <;> rfl)
    · exact ftCountRun_ending h
  | ftLoad sym =>
    rcases execFtLoad_cases h with ⟨-, rfl⟩ | ⟨-, rfl⟩
    · exact .raises ..
    · exact .completes (by constructor <;> rfl) (by constructor <;> intro <;> rfl)
  | ftGet k =>
    rcases execFtGet_cases h with ⟨-, rfl⟩ | ⟨sym, count, -, rfl⟩
    · exact .raises ..
    · exact .completes (by constructor <;> rfl) (by constructor <;> simp [resultsNamed])
  | treeBuild =>
    rcases execTreeBuild_cases h with ⟨-, rfl⟩ | ⟨-, nodes, root, -, rfl⟩
    · exact .raises ..
    · exact .completes (by constructor <;> rfl) (by constructor <;> simp [resultsNamed])
  | codeGen =>
    rcases execCodeGen_cases h with ⟨-, rfl⟩ | ⟨-, r, ps, -, -, rfl⟩
    · exact .raises ..
    · exact .completes (by constructor <;> rfl) (by constructor <;> simp [resultsNamed])
  | nodeRead k =>
    rcases execNodeRead_cases h with ⟨-, rfl⟩ | ⟨-, -, rfl⟩ | ⟨-, -, e, -, rfl⟩
    · exact .raises ..
    · exact .raises ..
    · exact .completes (by constructor <;> rfl) (by constructor <;> simp [resultsNamed])
  | codeRead sym w =>
    rcases execCodeRead_cases h with ⟨-, rfl⟩ | ⟨-, rfl⟩
    · exact .raises ..
    · exact .completes (by constructor <;> rfl) (by constructor <;> simp [resultsNamed])
  | encInit =>
    rcases execEncInit_cases h with ⟨-, rfl⟩ | ⟨-, rfl⟩
    · exact .raises ..
    · exact .completes (by constructor <;> rfl) (by constructor <;> intro <;> rfl)
  | encData =>
    rcases execEncData_cases h with ⟨-, -, rfl⟩ | ⟨-, -, rfl⟩ | ⟨-, h⟩
    · exact .raises ..
    · exact .continues (by constructor <;> rfl) (by constructor <;> intro <;> rfl)
    · exact encDataRun_ending h
  | encFlush =>
    rcases execEncFlush_cases h with ⟨-, -, rfl⟩ | ⟨-, -, rfl⟩ | ⟨-, h⟩
    · exact .raises ..
    · exact .continues (by constructor <;> rfl) (by constructor <;> intro <;> rfl)
    · exact encFlushRun_ending h
  | decInit padf =>
    rcases execDecInit_cases h with ⟨-, rfl⟩ | ⟨-, -, rfl⟩ | ⟨-, -, -, rfl⟩ | ⟨-, -, -, rfl⟩
    · exact .raises ..
    · exact .raises ..
    · exact .raises ..
    · exact .completes (by constructor <;> rfl) (by constructor <;> intro <;> rfl)
  | decData =>
    rcases execDecData_cases h with ⟨-, -, rfl⟩ | ⟨-, -, -, rfl⟩ | ⟨-, -, -, rfl⟩ | ⟨-, h⟩
    · exact .raises ..
    · exact .raises ..
    · exact .continues (by constructor <;> rfl) (by constructor <;> intro <;> rfl)
    · exact decDataRun_ending h
  | decFinish =>
    rcases execDecFinish_cases h with ⟨-, rfl⟩ | ⟨-, -, rfl⟩ | ⟨-, -, -, rfl⟩ | ⟨-, -, -, -, rfl⟩
    · exact .raises ..
    · exact .raises ..
    · exact .raises ..
    · exact .completes (by constructor <;> rfl) (by constructor <;> simp [resultsNamed])

theorem StepEnding.frame (h : StepEnding i s t) : EngineFrame s t := by
  cases h with
  | raises c info => constructor <;> rfl
  | completes data results => exact { data with }
  | continues data results => exact { data with }

/-- R35 for one step: the RESULT registers stay, or the step completes and those its rule does not name stay. -/
theorem StepEnding.results (h : StepEnding i s t) :
    KeepsResultsFrom 0 s t ∨ (t.busy = false ∧ t.done = true ∧ KeepsResultsFrom (resultsNamed i) s t) := by
  cases h with
  | raises c info => exact .inl (by constructor <;> intro <;> rfl)
  | completes data results => exact .inr ⟨rfl, rfl, { results with }⟩
  | continues data results => exact .inl results

/-- An engine step is idle, raises BAD_CMD, or leaves the command in CUR in one of the three ways (R90 to R92). -/
theorem engineStep_ending (h : engineStep s = .next t) :
    (s.busy = false ∧ t = s) ∨ (s.busy = true ∧ t = raiseError .badCmd s.cur s) ∨
    (∃ i, s.busy = true ∧ decode s.cur = .ok i ∧ StepEnding i s t) := by
  rcases engineStep_cases h with ⟨hb, ht⟩ | ⟨hb, -, -, ht⟩ | ⟨i, hb, -, hd, hi, hx⟩ | ⟨i, hb, -, hd, hs, hx⟩
  · exact .inl ⟨hb, ht⟩
  · exact .inr (.inl ⟨hb, ht⟩)
  · exact .inr (.inr ⟨i, hb, hd, exec_ending hi hx⟩)
  · have hi : i ≠ .reset := fun hr => by rw [hr] at hs; cases hs
    exact .inr (.inr ⟨i, hb, hd, exec_ending hi hx⟩)

/-- The engine writes none of its frame. -/
theorem engineStep_frame (h : engineStep s = .next t) : EngineFrame s t := by
  rcases engineStep_ending h with ⟨-, rfl⟩ | ⟨-, rfl⟩ | ⟨i, -, -, hend⟩
  · constructor <;> rfl
  · constructor <;> rfl
  · exact hend.frame

end

/-! ### The FIFO depths (R45) -/

section
variable {s t : State}

/-- No write changes the FIFO depths: a reset keeps them, and no register holds them. -/
theorem busWrite_cfg (off v : Word) (s : State) : (busWrite off v s).cfg = s.cfg := by
  rcases busWrite_cases off v s with h | ⟨-, h⟩ | ⟨-, h⟩ | ⟨-, h⟩ | ⟨-, h⟩ | ⟨-, h⟩ <;> rw [h]
  · rw [writeStatus_eq]
  · rcases writeCmd_cases v s with ⟨-, h⟩ | ⟨-, -, h⟩ | ⟨-, -, -, h⟩ <;> rw [h] <;> rfl
  · cases hfull : inFull s
    · rw [writeDataIn_of_not_full v s hfull]
    · rw [writeDataIn_of_full v s hfull]

theorem busReadState_cfg (off : Word) (s : State) : (busReadState off s).cfg = s.cfg := by
  rcases busReadState_cases off s with h | ⟨-, h⟩ <;> rw [h]

theorem applyEvent_cfg {e : Event} (h : applyEvent e s = .next t) : t.cfg = s.cfg := by
  cases e with
  | busRead off =>
    injection h with h
    subst h
    exact busReadState_cfg off s
  | busWrite off v =>
    injection h with h
    subst h
    exact busWrite_cfg off v s
  | hwReset =>
    injection h with h
    subst h
    rfl
  | engine => exact (engineStep_frame h).cfg

end

/-! ### The commands that name a RESULT register (R35) -/

section
variable {i : Instr}

theorem names_result0 (h : ¬ resultsNamed i ≤ 0) : i = .treeBuild ∨ i = .codeGen ∨ i = .encFlush ∨ i = .decFinish ∨
    (∃ k, i = .ftGet k) ∨ (∃ b, i = .ftRead b) ∨ (∃ k, i = .nodeRead k) ∨ (∃ b k, i = .codeRead b k) := by
  cases i <;> simp [resultsNamed] at h ⊢

theorem names_result1 (h : ¬ resultsNamed i ≤ 1) : i = .treeBuild ∨ i = .codeGen ∨ i = .encFlush ∨
    (∃ k, i = .ftGet k) ∨ (∃ b, i = .ftRead b) ∨ (∃ k, i = .nodeRead k) ∨ (∃ b k, i = .codeRead b k) := by
  cases i <;> simp [resultsNamed] at h ⊢

theorem names_result2 (h : ¬ resultsNamed i ≤ 2) : i = .encFlush ∨ ∃ k, i = .nodeRead k := by
  cases i <;> simp [resultsNamed] at h ⊢

theorem names_result3 (h : ¬ resultsNamed i ≤ 3) : ∃ k, i = .nodeRead k := by
  cases i <;> simp [resultsNamed] at h ⊢

/-- Some RESULT register differs between two states. -/
def ResultsDiffer (s t : State) : Prop :=
  t.result0 ≠ s.result0 ∨ t.result1 ≠ s.result1 ∨ t.result2 ≠ s.result2 ∨ t.result3 ≠ s.result3

theorem ResultsDiffer.not_keeps {s t : State} (h : ResultsDiffer s t) : ¬ KeepsResultsFrom 0 s t := by
  intro hk
  rcases h with h | h | h | h
  · exact h (hk.result0 (by decide))
  · exact h (hk.result1 (by decide))
  · exact h (hk.result2 (by decide))
  · exact h (hk.result3 (by decide))

/-- R35: an engine step that changes a RESULT register completes a command, and keeps those its rule does not
name. -/
theorem engineStep_of_resultsDiffer {s t : State} (h : engineStep s = .next t) (hd : ResultsDiffer s t) :
    s.busy = true ∧ t.busy = false ∧ t.done = true ∧
    ∃ i, decode s.cur = .ok i ∧ KeepsResultsFrom (resultsNamed i) s t := by
  rcases engineStep_ending h with ⟨-, rfl⟩ | ⟨-, rfl⟩ | ⟨i, hbusy, hdec, hend⟩
  · exact absurd (.refl 0 t) hd.not_keeps
  · exact absurd (by constructor <;> intro <;> rfl) hd.not_keeps
  · rcases hend.results with hk | ⟨hidle, hdone, hk⟩
    · exact absurd hk hd.not_keeps
    · exact ⟨hbusy, hidle, hdone, i, hdec, hk⟩

end

end Sys2Proof.Machine
end

section
/-! PROOFS. The statements about the registers of spec/10_state.md. -/

namespace Sys2Proof.Proofs

open Sys2Proof.Machine

/-- Settles O21, by the inversion of the engine step: a changed RESULT register means that the step completed. -/
theorem resultsChangeOnlyByTheCommandsThatNameThem : Obligations.ResultsChangeOnlyByTheCommandsThatNameThem := by
  unfold Obligations.ResultsChangeOnlyByTheCommandsThatNameThem
  refine ⟨fun s v => ?_, ⟨rfl, rfl, rfl, rfl⟩, fun s t h hd => ?_⟩
  · exact ⟨busReadValue_regOffset .result0 s, busReadValue_regOffset .result1 s, busReadValue_regOffset .result2 s,
      busReadValue_regOffset .result3 s, busWrite_regOffset v .result0 s, busWrite_regOffset v .result1 s,
      busWrite_regOffset v .result2 s, busWrite_regOffset v .result3 s⟩
  · obtain ⟨hbusy, hidle, hdone, i, hdec, hk⟩ := engineStep_of_resultsDiffer h hd
    exact ⟨hbusy, hidle, hdone, i, hdec, fun hne => names_result0 (hne ∘ hk.result0),
      fun hne => names_result1 (hne ∘ hk.result1), fun hne => names_result2 (hne ∘ hk.result2),
      fun hne => names_result3 (hne ∘ hk.result3)⟩

/-- Settles O20: each register by its slot; PARAM by the events' frame, TBL_SIZE by counting, the error record by the
invariant. -/
theorem readOnlyRegisterValues : Obligations.ReadOnlyRegisterValues := by
  unfold Obligations.ReadOnlyRegisterValues
  have hreset : ∀ off ∈ ([0x18, 0x1C, 0x38, 0x3C, 0x40, 0x44, 0x48, 0x4C, 0x50, 0x54] : List Word),
      busReadValue off State.reset = 0 := by
    simp only [List.forall_mem_cons, List.not_mem_nil, false_imp_iff, implies_true, and_true]
    decide +kernel
  have hslot : ∀ off ∈ ([0x00, 0x04, 0x18, 0x1C, 0x38, 0x3C, 0x40, 0x44, 0x48, 0x4C, 0x50, 0x54, 0x58] : List Word),
      slotOf off ∉ [0x02, 0x03, 0x04, 0x05, 0x0C] := by
    simp only [List.forall_mem_cons, List.not_mem_nil, false_imp_iff, implies_true, and_true]
    decide
  refine ⟨fun s => ?_, hreset, fun off hoff s v => ?_⟩
  · have herrcode : busReadValue 0x18 s = zext s.errCode := busReadValue_regOffset .errcode s
    have herrinfo : busReadValue 0x1C s = s.errInfo := busReadValue_regOffset .errinfo s
    have htbl : busReadValue 0x3C s = BitVec.ofNat 32 (nSym s) := busReadValue_regOffset .tblSize s
    have htree : busReadValue 0x40 s = treeInfoWord s := busReadValue_regOffset .treeInfo s
    have hparam : busReadValue 0x58 s = s.cfg.outDepth ++ s.cfg.inDepth := busReadValue_regOffset .param s
    rw [herrcode, herrinfo, htbl, htree, hparam]
    refine ⟨busReadValue_regOffset .id s, busReadValue_regOffset .version s, busReadValue_regOffset .fifoLvl s, ?_,
      treeInfoWord_of_valid s, fun hv => if_neg (Bool.eq_false_iff.mp hv), rfl, rfl, fun hinv herr => ?_,
      busReadValue_regOffset .pad s, busReadValue_regOffset .bitcntLo s, busReadValue_regOffset .bitcntHi s,
      busReadValue_regOffset .decRem s, busReadValue_regOffset .symcnt s, BitVec.extractLsb'_append_eq_right,
      BitVec.extractLsb'_append_eq_left, fun e t => applyEvent_cfg⟩
    · have := nSym_le s
      rw [← nSym_eq_card, BitVec.toNat_ofNat, Nat.mod_eq_of_lt (by omega)]
    · obtain ⟨hcode, hinfo⟩ := hinv.noErrRecord herr
      exact ⟨by rw [hcode]; rfl, hinfo⟩
  · exact busWrite_of_slot_not_writable v s (hslot off hoff)

/-- Settles O13, from the layout of the STATUS word and the field-by-field form of its write. -/
theorem statusRegister : Obligations.StatusRegister := by
  unfold Obligations.StatusRegister
  refine ⟨fun s => ?_, by decide, fun s v => ?_⟩
  · have hread : busReadValue 0x0C s = statusWord s := busReadValue_regOffset .status s
    obtain ⟨h0, h1, h2, h3, h4, h5, h6, h7, h8, h9, h10, h11, h14, h15⟩ := statusWord_bits s
    rw [hread]
    refine ⟨h0, h1, h2, h3, h4.trans (inEmpty_eq_decide s), h5, h6.trans (outEmpty_eq_decide s), h7, h8, h9, h10, h11,
      ?_, h14, h15, statusWord_reserved s⟩
    rw [statusWord_mode]
    cases s.mode <;> rfl
  · exact (busWrite_regOffset v .status s).trans (writeStatus_eq v s)

/-- Settles O18: the DATA_IN write by IN's fullness, the DATA_OUT read by the oldest byte of OUT. -/
theorem dataRegisters : Obligations.DataRegisters := by
  unfold Obligations.DataRegisters
  intro s v
  have hwrite : busWrite 0x30 v s = writeDataIn v s := busWrite_regOffset v .dataIn s
  have hread : busReadValue 0x34 s = dataOutWord s := busReadValue_regOffset .dataOut s
  have hpop : busReadState 0x34 s = { s with outq := s.outq.tail } := busReadState_regOffset .dataOut s
  rw [hwrite, hread, hpop]
  refine ⟨fun h => ?_, fun h => ?_, busReadValue_regOffset .dataIn s, busReadState_regOffset .dataIn s,
    fun b rest h => ?_, fun h => ?_, busWrite_regOffset v .dataOut s⟩
  · exact writeDataIn_of_not_full v s (Bool.eq_false_iff.mpr fun hf => h ((inFull_iff s).mp hf))
  · exact writeDataIn_of_full v s ((inFull_iff s).mpr h)
  · exact ⟨dataOutWord_of_cons h, by rw [h]; rfl⟩
  · have htail : s.outq.tail = s.outq := by rw [h]; rfl
    exact ⟨dataOutWord_of_nil h, by rw [htail]⟩

/-- Settles O19: the two registers by their slots, and the acceptance of a command by R88's cases. -/
theorem controlAndArgumentRegisters : Obligations.ControlAndArgumentRegisters := by
  unfold Obligations.ControlAndArgumentRegisters
  intro s v
  have hctrl : busReadValue 0x08 s = zext (BitVec.ofBool s.errIe ++ BitVec.ofBool s.doneIe) :=
    busReadValue_regOffset .ctrl s
  have hcmd : busWrite 0x10 v s = writeCmd v s := busWrite_regOffset v .cmd s
  rw [hctrl, hcmd]
  obtain ⟨hdoneIe, herrIe, hreserved⟩ := ctrlWord_bits s.errIe s.doneIe
  refine ⟨busWrite_regOffset v .ctrl s, hdoneIe, herrIe, hreserved, by decide, rfl, busWrite_regOffset v .arg s,
    busReadValue_regOffset .arg s, by decide, fun hv hbusy herr => ?_⟩
  rcases writeCmd_cases v s with ⟨h, -⟩ | ⟨-, h, -⟩ | ⟨-, -, -, h⟩
  · exact absurd h hv
  · simp [hbusy, herr] at h
  · rw [h]
    rfl

/-- Settles O22: the one state is `resetState s`, whose fields are those of `State.reset`. -/
theorem resetValues : Obligations.ResetValues := by
  unfold Obligations.ResetValues
  intro s
  have hcmd : busWrite 0x10 0x01000000 s = resetState s :=
    (busWrite_regOffset resetWord .cmd s).trans (writeCmd_resetWord s)
  have hctrl : busReadValue 0x08 (resetState s) = 0 :=
    (busReadValue_regOffset .ctrl _).trans (by decide : zext (BitVec.ofBool false ++ BitVec.ofBool false) = 0)
  have hstatus (h : s.cfg.Valid) : busReadValue 0x0C (resetState s) = 0x00000050 :=
    (busReadValue_regOffset .status _).trans (statusWord_resetState s h)
  refine ⟨resetState s, rfl, hcmd, rfl, ?_⟩
  refine ⟨rfl, rfl, rfl, rfl, rfl, rfl, rfl, rfl, hctrl, hstatus, ?_⟩
  have hid : busReadValue 0x00 (resetState s) = 0x48554646 := busReadValue_regOffset .id _
  have hversion : busReadValue 0x04 (resetState s) = 0x00010000 := busReadValue_regOffset .version _
  -- ARG and the error record, RESULT0..3, the FIFOs and FT; the tree, the codes and MODE; the packer; the decoder;
  -- the latched command; the constants and IRQ
  exact ⟨rfl, rfl, rfl, rfl, rfl, rfl, rfl, rfl, rfl, ftAt_resetState s,
    rfl, rfl, rfl, rfl, rfl,
    rfl, rfl, rfl, rfl, rfl, rfl,
    rfl, rfl, rfl, rfl, rfl,
    rfl, rfl, rfl, rfl,
    hid, hversion, rfl, rfl⟩

end Sys2Proof.Proofs
end

section
/-! SUPPORT. Offsets that share a slot select the same register, and a reserved slot selects none (R26, R58, R60). -/

namespace Sys2Proof.Machine

/-- An offset in the slot of a register selects that register (R58). -/
theorem regAt_of_slotOf_eq {off : Word} {r : Reg} (h : slotOf off = slotOf (regOffset r)) : regAt off = some r := by
  have hsame : regAt off = regAt (regOffset r) := by simp only [regAt, h]
  rw [hsame, regAt_regOffset]

/-- The last register of the map is PARAM, in slot 0x16 (R26). -/
theorem slotOf_regOffset_lt (r : Reg) : (slotOf (regOffset r)).toNat < 0x17 := by cases r <;> decide

/-- A reserved slot has no register (R60). -/
theorem regAt_of_reserved {off : Word} (h : 0x17 ≤ (slotOf off).toNat) : regAt off = none := by
  rw [Option.eq_none_iff_forall_ne_some]
  intro r hr
  have hlt := slotOf_regOffset_lt r
  rw [slotOf_of_regAt hr] at hlt
  exact absurd h (Nat.not_le.mpr hlt)

end Sys2Proof.Machine
end

section
/-! SUPPORT. The theorem that settles the obligation about reserved, read-only and write-only slots
(spec/20_memory.md). -/

namespace Sys2Proof.Proofs

open Sys2Proof.Machine

/-- Settles O16: a reserved slot has no register, a write has an effect in five slots only, and CMD and DATA_IN
are the registers that read 0. -/
theorem reservedAndReadOnlySlots : Obligations.ReservedAndReadOnlySlots := by
  unfold Obligations.ReservedAndReadOnlySlots
  intro off v s
  refine ⟨fun h => ?_, fun h => ?_, fun h => ?_⟩
  · have hnone := regAt_of_reserved h
    simp [busReadValue, busReadState, hnone]
  · exact busWrite_of_slot_not_writable v s fun hslot => h (List.mem_map_of_mem (f := BitVec.toNat) hslot)
  · simp only [List.mem_cons, List.not_mem_nil, or_false] at h
    rcases h with hcmd | hdata
    · have hreg : regAt off = some .cmd := regAt_of_slotOf_eq (BitVec.eq_of_toNat_eq hcmd)
      simp [busReadValue, hreg, readReg]
    · have hreg : regAt off = some .dataIn := regAt_of_slotOf_eq (BitVec.eq_of_toNat_eq hdata)
      simp [busReadValue, hreg, readReg]

end Sys2Proof.Proofs
end

section
/-! SUPPORT. What the decoder answers, row by row of the opcode map (R80), and what an accepted word does when it
spells no command (R82). -/

namespace Sys2Proof

/-! ### The opcode map (R80) -/

section
variable {r r' : OpRow} {w : Word}

theorem OpRow.spells_iff : r.spells w = true ↔ w &&& r.mask = r.pattern := beq_iff_eq

/-- Bits that the mask covers are those of the pattern. -/
theorem OpRow.extractLsb'_of_spells (h : r.spells w = true) {lo n : Nat}
    (hmask : r.mask.extractLsb' lo n = BitVec.allOnes n) :
    w.extractLsb' lo n = r.pattern.extractLsb' lo n := by
  rw [← spells_iff.mp h, BitVec.extractLsb'_and, hmask, BitVec.and_allOnes]

/-- Every mask covers the opcode. -/
theorem opField_mask : ∀ r ∈ opcodeMap, opField r.mask = BitVec.allOnes 8 := by decide

/-- The opcodes of the map are distinct. -/
theorem opcodes_nodup : (opcodeMap.map fun r => opField r.pattern).Nodup := by decide

theorem opField_of_spells (hr : r ∈ opcodeMap) (h : r.spells w = true) : opField w = opField r.pattern :=
  OpRow.extractLsb'_of_spells h (opField_mask r hr)

/-- At most one row matches any word (R80). -/
theorem row_unique (hr : r ∈ opcodeMap) (h : r.spells w = true) (hr' : r' ∈ opcodeMap) (h' : r'.spells w = true) :
    r = r' :=
  List.inj_on_of_nodup_map opcodes_nodup hr hr' ((opField_of_spells hr h).symm.trans (opField_of_spells hr' h'))

/-- A word decodes to the command of the row that it spells, with the operands of that row. -/
theorem decode_eq_ok_iff {i : Instr} :
    decode w = .ok i ↔ ∃ r ∈ opcodeMap, r.spells w = true ∧ i = r.make w := by
  unfold decode
  cases hfind : opcodeMap.find? fun r => r.spells w with
  | none =>
    have hnone := List.find?_eq_none.mp hfind
    constructor
    · intro h
      dsimp only at h
      split at h <;> cases h
    · rintro ⟨r, hr, hspells, -⟩
      exact absurd hspells (hnone r hr)
  | some r =>
    have hr := List.mem_of_find?_eq_some hfind
    have hspells := List.find?_some hfind
    constructor
    · intro h
      cases h
      exact ⟨r, hr, hspells, rfl⟩
    · rintro ⟨r', hr', hspells', rfl⟩
      rw [row_unique hr' hspells' hr hspells]

/-- An opcode that no row has is the opcode of no command. -/
theorem opField_mem_of_decode {i : Instr} (h : decode w = .ok i) :
    opField w ∈ opcodeMap.map fun r => opField r.pattern := by
  obtain ⟨r, hr, hspells, -⟩ := decode_eq_ok_iff.mp h
  exact List.mem_map.mpr ⟨r, hr, (opField_of_spells hr hspells).symm⟩

/-- `n` bits from bit `lo` on are reserved, and so 0, in the commands with an opcode in `ops` (R78). -/
abbrev Reserved (ops : List (BitVec 8)) (lo n : Nat) : Prop :=
  ∀ r ∈ opcodeMap, opField r.pattern ∈ ops →
    r.mask.extractLsb' lo n = BitVec.allOnes n ∧ r.pattern.extractLsb' lo n = 0

/-- A word that spells a command has its reserved bits 0. -/
theorem Reserved.extractLsb'_eq_zero {ops : List (BitVec 8)} {lo n : Nat} (hres : Reserved ops lo n) {i : Instr}
    (h : decode w = .ok i) (hop : opField w ∈ ops) : w.extractLsb' lo n = 0 := by
  obtain ⟨r, hr, hspells, -⟩ := decode_eq_ok_iff.mp h
  rw [opField_of_spells hr hspells] at hop
  obtain ⟨hmask, hzero⟩ := hres r hr hop
  rw [OpRow.extractLsb'_of_spells hspells hmask, hzero]

/-- RESET has no operand: a word with its opcode spells a command only when it is RESET's word (R83). -/
theorem eq_resetWord_of_decode {i : Instr} (hop : opField w = 0x01) (h : decode w = .ok i) : w = resetWord := by
  have hrow : ∀ r ∈ opcodeMap, opField r.pattern = 0x01 →
      r.mask = BitVec.allOnes 32 ∧ r.pattern = resetWord := by decide
  obtain ⟨r, hr, hspells, -⟩ := decode_eq_ok_iff.mp h
  obtain ⟨hmask, hpattern⟩ := hrow r hr ((opField_of_spells hr hspells).symm.trans hop)
  have hw := OpRow.spells_iff.mp hspells
  rwa [hmask, BitVec.and_allOnes, hpattern] at hw

theorem decode_resetWord : decode resetWord = .ok .reset := by decide +kernel

end

/-! ### Acceptance and the START step of an illegal word (R82, R88, R91) -/

namespace Machine

section
variable {s : State} {v : Word}

theorem busWrite_cmd_of_idle (hv : v ≠ resetWord) (hbusy : s.busy = false) (herr : s.err = false) :
    busWrite (regOffset .cmd) v s = acceptCommand v s := by
  rw [busWrite_regOffset]
  rcases writeCmd_cases v s with ⟨hr, -⟩ | ⟨-, hb | he, -⟩ | ⟨-, -, -, h⟩
  · exact absurd hr hv
  · simp [hbusy] at hb
  · simp [herr] at he
  · exact h

/-- The START step of a word that spells no command. -/
theorem engineStep_of_illegal (hbusy : s.busy = true) (hph : s.ph = .start) (h : ∀ i, decode s.cur ≠ .ok i) :
    engineStep s = .next (raiseError .badCmd s.cur s) := by
  cases hdec : decode s.cur with
  | ok i => exact absurd hdec (h i)
  | error e => simp [engineStep, hbusy, hph, startStep, hdec]

/-- A word that spells no command, written to CMD with BUSY = 0 and ERR = 0: it is accepted, since it is not RESET,
and its START step raises BAD_CMD. -/
theorem engineStep_busWrite_cmd_of_illegal (hbusy : s.busy = false) (herr : s.err = false)
    (h : ∀ i, decode v ≠ .ok i) :
    engineStep (busWrite (regOffset .cmd) v s) = .next (raiseError .badCmd v (acceptCommand v s)) := by
  have hv : v ≠ resetWord := fun hr => h .reset (hr ▸ decode_resetWord)
  rw [busWrite_cmd_of_idle hv hbusy herr]
  exact engineStep_of_illegal rfl rfl h

end

end Machine

end Sys2Proof
end

section
/-! PROOFS. The statements about the command encoding of spec/30_encoding.md. -/

namespace Sys2Proof.Proofs

open Sys2Proof.Machine

/-- Settles O3: the constructor of a command names its one row of the opcode map. -/
theorem decodeFollowsTheOpcodeMap : Obligations.DecodeFollowsTheOpcodeMap := by
  unfold Obligations.DecodeFollowsTheOpcodeMap
  intro w
  -- each conjunct asks for a row of the map that `w` spells and that makes the conjunct's command
  simp only [decode_eq_ok_iff, OpRow.spells_iff]
  -- the other 17 rows make a command of another constructor
  simp [opcodeMap, formatZRows, operandRows, symField, idxField, wField, padField, clrInField, clrOutField]

/-- Settles O4: an accepted illegal word raises BAD_CMD; the opcode, or a reserved bit, keeps a word from spelling
any row. -/
theorem illegalWordRaisesBadCmd : Obligations.IllegalWordRaisesBadCmd := by
  unfold Obligations.IllegalWordRaisesBadCmd
  refine ⟨fun s v => engineStep_busWrite_cmd_of_illegal, fun v hop i h => ?_, fun v hv i h => ?_⟩
  · have hops : opcodeMap.map (fun r => opField r.pattern) ⊆ [0x00, 0x01, 0x02, 0x10, 0x11, 0x12, 0x13, 0x14, 0x20,
        0x21, 0x22, 0x23, 0x30, 0x31, 0x32, 0x40, 0x41, 0x42] := by decide
    exact hop (hops (opField_mem_of_decode h))
  · rcases hv with ⟨hop, hne⟩ | ⟨hop, hne⟩ | ⟨hop, hne⟩ | ⟨hop, hne⟩ | ⟨hop, hne⟩
    · have hres : Reserved [0x00, 0x01, 0x10, 0x11, 0x20, 0x21, 0x30, 0x31, 0x32, 0x41, 0x42] 0 24 := by decide
      exact hne (hres.extractLsb'_eq_zero h hop)
    · have hres : Reserved [0x02] 2 22 := by decide
      exact hne (hres.extractLsb'_eq_zero h (List.mem_singleton.mpr hop))
    · have hres : Reserved [0x12, 0x14, 0x40] 8 16 := by decide
      exact hne (hres.extractLsb'_eq_zero h hop)
    · have hres : Reserved [0x13, 0x22] 9 15 := by decide
      exact hne (hres.extractLsb'_eq_zero h hop)
    · have hres : Reserved [0x23] 11 13 := by decide
      exact hne (hres.extractLsb'_eq_zero h (List.mem_singleton.mpr hop))

/-- Settles O5: RESET's mask covers the whole word, so any other word with its opcode is illegal. -/
theorem resetHasOneSpelling : Obligations.ResetHasOneSpelling := by
  unfold Obligations.ResetHasOneSpelling
  refine ⟨fun v => ⟨fun h => ?_, fun hv => hv ▸ decode_resetWord⟩, fun s => ?_, fun s v hop hne hbusy herr => ?_⟩
  · obtain ⟨-, hrow, -⟩ := decodeFollowsTheOpcodeMap v
    exact BitVec.and_allOnes.symm.trans (hrow.mp h)
  · exact congrArg Host.Outcome.next ((busWrite_regOffset _ .cmd s).trans (writeCmd_resetWord s)).symm
  · exact engineStep_busWrite_cmd_of_illegal hbusy herr fun i h => hne (eq_resetWord_of_decode hop h)

end Sys2Proof.Proofs
end

section
/-! SUPPORT. When the running command stalls (R90, R95, R96), and what a step that raises leaves (R94). -/

namespace Sys2Proof.Machine

/-! ### The stalls of the running command (R96) -/

section
variable {i : Instr} {s : State} {x : Stall}

/-- The row of a streaming command has no operand field: its mask covers the whole word (R80, R91). -/
theorem mask_and_pattern_of_streaming (w : Word) :
    ∀ r ∈ opcodeMap, streaming (r.make w) = true → r.mask = BitVec.allOnes 32 ∧ r.pattern = encode (r.make w) := by
  simp [opcodeMap, formatZRows, operandRows, streaming, encode]

theorem decode_encode_of_streaming (hi : streaming i = true) : decode (encode i) = .ok i := by
  cases i with
  | ftCount | encData | encFlush | decData => decide +kernel
  | _ => cases hi

/-- A streaming command has one spelling. -/
theorem decode_eq_ok_iff_of_streaming {w : Word} (hi : streaming i = true) :
    decode w = .ok i ↔ w = encode i := by
  refine ⟨fun h => ?_, fun hw => hw ▸ decode_encode_of_streaming hi⟩
  obtain ⟨r, hr, hspells, rfl⟩ := decode_eq_ok_iff.mp h
  obtain ⟨hmask, hpattern⟩ := mask_and_pattern_of_streaming w r hr hi
  rw [OpRow.spells_iff, hmask, BitVec.and_allOnes] at hspells
  exact hspells.trans hpattern

/-- The four streaming commands (R91). -/
theorem exists_streaming_iff {p : Instr → Prop} :
    (∃ i, streaming i = true ∧ p i) ↔ p .ftCount ∨ p .encData ∨ p .encFlush ∨ p .decData := by
  constructor
  · rintro ⟨i, hi, hp⟩
    cases i with
    | ftCount => exact .inl hp
    | encData => exact .inr (.inl hp)
    | encFlush => exact .inr (.inr (.inl hp))
    | decData => exact .inr (.inr (.inr hp))
    | _ => cases hi
  · rintro (hp | hp | hp | hp)
    · exact ⟨_, rfl, hp⟩
    · exact ⟨_, rfl, hp⟩
    · exact ⟨_, rfl, hp⟩
    · exact ⟨_, rfl, hp⟩

/-- Only a streaming command has a RUN step that can stall (R91). -/
theorem streaming_of_runStall (h : runStall i s = some x) : streaming i = true := by
  cases i with
  | ftCount | encData | encFlush | decData => rfl
  | _ => cases h

/-- The stall of R96 is that of the streaming command which CUR spells. -/
theorem stallOf_eq_some_iff :
    stallOf s = some x ↔
      s.busy = true ∧ s.ph = .run ∧ ∃ i, streaming i = true ∧ s.cur = encode i ∧ runStall i s = some x := by
  unfold stallOf
  split
  · rename_i hrun
    obtain ⟨hbusy, hph⟩ := hrun
    simp only [hbusy, hph, true_and]
    cases hdec : decode s.cur with
    | error e =>
      refine iff_of_false nofun fun ⟨i, hi, hcur, _⟩ => ?_
      simp [(decode_eq_ok_iff_of_streaming hi).mpr hcur] at hdec
    | ok i =>
      refine ⟨fun h => ?_, fun ⟨j, hj, hcur, h⟩ => ?_⟩
      · have hi := streaming_of_runStall h
        exact ⟨i, hi, (decode_eq_ok_iff_of_streaming hi).mp hdec, h⟩
      · obtain rfl : i = j := Except.ok.inj (hdec.symm.trans ((decode_eq_ok_iff_of_streaming hj).mpr hcur))
        exact h
  · rename_i hidle
    exact iff_of_false nofun fun ⟨hbusy, hph, _⟩ => hidle ⟨hbusy, hph⟩

theorem stallOnIn_eq_some_iff : stallOnIn s = some x ↔ x = .stallIn ∧ s.cnt ≠ 0 ∧ s.inq = [] := by
  cases x <;> simp [stallOnIn, inEmpty_iff]

theorem stallOnOut_eq_some_iff :
    stallOnOut s = some x ↔ x = .stallOut ∧ s.outq.length = s.cfg.outDepth.toNat := by
  cases x <;> simp [stallOnOut, outFull_iff]

/-- FT_COUNT waits for its next byte (R105). -/
theorem runStall_ftCount_iff : runStall .ftCount s = some x ↔ x = .stallIn ∧ s.cnt ≠ 0 ∧ s.inq = [] :=
  stallOnIn_eq_some_iff

/-- ENC_DATA waits for room for a full group, and for its next byte when no code bit is left (R123). -/
theorem runStall_encData_iff :
    runStall .encData s = some x ↔
      (s.encAccN = 8 ∧ x = .stallOut ∧ s.outq.length = s.cfg.outDepth.toNat) ∨
      (s.encAccN ≠ 8 ∧ s.encSrN = 0 ∧ x = .stallIn ∧ s.cnt ≠ 0 ∧ s.inq = []) := by
  by_cases hfull : s.encAccN = 8
  · simp [runStall, hfull, stallOnOut_eq_some_iff]
  · simp [runStall, hfull, stallOnIn_eq_some_iff]

/-- ENC_FLUSH waits for room for a partial group (R124). -/
theorem runStall_encFlush_iff :
    runStall .encFlush s = some x ↔
      s.encAccN ≠ 0 ∧ x = .stallOut ∧ s.outq.length = s.cfg.outDepth.toNat := by
  by_cases hempty : s.encAccN = 0
  · simp [runStall, hempty]
  · simp [runStall, hempty, stallOnOut_eq_some_iff]

/-- DEC_DATA waits for room for a symbol, and for its next byte when no payload bit is left (R129). -/
theorem runStall_decData_iff :
    runStall .decData s = some x ↔
      (s.decShN ≠ 0 ∧ (∃ sym, walkMove s = .emit sym) ∧ x = .stallOut ∧
        s.outq.length = s.cfg.outDepth.toNat) ∨
      (s.decShN = 0 ∧ x = .stallIn ∧ s.cnt ≠ 0 ∧ s.inq = []) := by
  by_cases hbits : s.decShN = 0
  · simp [runStall, hbits, stallOnIn_eq_some_iff]
  · cases hmove : walkMove s with
    | emit sym => simp [runStall, hbits, hmove, stallOnOut_eq_some_iff]
    | move nxt => simp [runStall, hbits, hmove]
    | badBit => simp [runStall, hbits, hmove]
    | noNode => simp [runStall, hbits, hmove]

end

/-! ### The raising step (R94) -/

section
variable {s t : State}

/-- ERRCODE is never 0 for an error, and R148 names 15 of them. -/
theorem errCodeBits_mem_range (c : ErrCode) : 1 ≤ (errCodeBits c).toNat ∧ (errCodeBits c).toNat ≤ 15 := by
  cases c <;> decide

/-- An engine step that sets ERR is that of a running command and raises one of the errors. -/
theorem engineStep_of_err_set (h : engineStep s = .next t) (hs : s.err = false) (ht : t.err = true) :
    s.busy = true ∧ ∃ c info, t = raiseError c info s := by
  rcases engineStep_ending h with ⟨-, rfl⟩ | ⟨hbusy, rfl⟩ | ⟨i, hbusy, -, hend⟩
  · simp [hs] at ht
  · exact ⟨hbusy, _, _, rfl⟩
  · cases hend with
    | raises c info => exact ⟨hbusy, c, info, rfl⟩
    | completes data _ => simp [data.err, hs] at ht
    | continues data _ => simp [data.err, hs] at ht

end

end Sys2Proof.Machine
end

section
/-! PROOFS. The statements about engine control of spec/40_engine_control.md. -/

namespace Sys2Proof.Proofs

open Sys2Proof.Machine

/-- Settles O9: the two bits read the stall of the command in CUR, and each streaming command has one spelling. -/
theorem stallBitsOfStatus : Obligations.StallBitsOfStatus := by
  unfold Obligations.StallBitsOfStatus
  intro s
  have hread : busReadValue 0x0C s = statusWord s := busReadValue_regOffset .status s
  obtain ⟨-, -, -, -, -, -, -, -, -, -, -, -, hstallIn, hstallOut⟩ := statusWord_bits s
  rw [hread, hstallIn, hstallOut]
  simp only [decide_eq_true_iff, stallOf_eq_some_iff, exists_streaming_iff, runStall_ftCount_iff, runStall_encData_iff,
    runStall_encFlush_iff, runStall_decData_iff, encode, reduceCtorEq, false_and, and_false, or_false, false_or,
    true_and]
  constructor <;> tauto

/-- Settles O11: a step that sets ERR is `raiseError` of one of the errors, and DONE is 0 while a command runs. -/
theorem raisingStepWritesOnlyTheErrorRecord : Obligations.RaisingStepWritesOnlyTheErrorRecord := by
  unfold Obligations.RaisingStepWritesOnlyTheErrorRecord
  intro s t h hs ht
  obtain ⟨hbusy, c, info, rfl⟩ := engineStep_of_err_set h hs ht
  obtain ⟨hlow, hhigh⟩ := errCodeBits_mem_range c
  refine ⟨rfl, hlow, hhigh, fun hinv => Bool.eq_false_iff.mpr fun hdone => ?_⟩
  obtain ⟨hidle, -⟩ := hinv.doneIdle hdone
  simp [hbusy] at hidle

/-- Settles O10, by the three cases of a CMD write. -/
theorem cmdWriteAcceptance : Obligations.CmdWriteAcceptance := by
  unfold Obligations.CmdWriteAcceptance
  intro s v
  have hcmd : busWrite 0x10 v s = writeCmd v s := busWrite_regOffset v .cmd s
  refine ⟨fun hv => ?_, fun hv hbusy => ?_, fun hv hbusy herr => busWrite_cmd_of_idle hv hbusy herr⟩
  · rw [hcmd, hv]
    exact writeCmd_resetWord s
  · rcases writeCmd_cases v s with ⟨h, -⟩ | ⟨-, -, h⟩ | ⟨-, hidle, hnoErr, -⟩
    · exact absurd h hv
    · rw [hcmd, h]
    · simp [hidle, hnoErr] at hbusy

/-- Settles O24: the word 0 is the first row of the opcode map, and NOP is `complete`. -/
theorem nopOnlyCompletes : Obligations.NopOnlyCompletes := by
  unfold Obligations.NopOnlyCompletes
  obtain ⟨hnop, -⟩ := decodeFollowsTheOpcodeMap 0x00000000
  exact ⟨hnop.mpr rfl, fun s => rfl⟩

/-- Settles O25: the two operand bits are bits 0 and 1 of the word. -/
theorem fifoClrEmptiesTheChosenFifos : Obligations.FifoClrEmptiesTheChosenFifos := by
  unfold Obligations.FifoClrEmptiesTheChosenFifos
  refine ⟨fun i o => ?_, fun s i o => rfl⟩
  obtain ⟨-, -, hfifoClr, -⟩ := decodeFollowsTheOpcodeMap (0x02#8 ++ 0#22 ++ BitVec.ofBool o ++ BitVec.ofBool i)
  refine (hfifoClr i o).mpr ?_
  revert i o
  decide

end Sys2Proof.Proofs
end

section
/-! SUPPORT. The frequency table (spec/41_frequency.md): the present symbols in ascending order, what a command word
with an operand in its low bits spells, and FT_COUNT phase by phase. -/

namespace Sys2Proof.Machine

/-! ### A command word with one operand (R78, R80) -/

/-- A word with operand `x` below the fixed part `p` matches `p` under the mask of that part, and its low bits are
the operand. -/
theorem append_operand_spells {m n : Nat} (p : BitVec m) (x : BitVec n) :
    (p ++ x) &&& (BitVec.allOnes m ++ 0#n) = p ++ 0#n ∧ x = (p ++ x).extractLsb' 0 n := by
  rw [BitVec.and_append, BitVec.and_allOnes, BitVec.and_zero, BitVec.extractLsb'_append_eq_right]
  exact ⟨rfl, rfl⟩

/-! ### The present symbols in ascending order (R108) -/

/-- Every symbol, in ascending order. -/
def allSymbols : List Byte := List.ofFn BitVec.ofFin

theorem length_allSymbols : allSymbols.length = 256 := List.length_ofFn

/-- A symbol stands at its own number. -/
theorem toNat_getElem_allSymbols {i : Nat} (hi : i < allSymbols.length) : allSymbols[i].toNat = i :=
  congrArg BitVec.toNat (List.getElem_ofFn hi)

theorem mem_allSymbols (b : Byte) : b ∈ allSymbols := List.mem_ofFn.mpr ⟨b.toFin, rfl⟩

theorem allSymbols_ascending : allSymbols.Pairwise fun a b => a.toNat < b.toNat :=
  List.pairwise_ofFn.mpr fun _ _ h => h

section
variable (s : State)

/-- The symbols with an entry in FT, in ascending order. -/
def presentSymbols : List Byte := allSymbols.filter fun b => (ftAt s b).present

theorem mem_presentSymbols {b : Byte} : b ∈ presentSymbols s ↔ (ftAt s b).present = true := by
  simp [presentSymbols, mem_allSymbols]

theorem presentSymbols_ascending : (presentSymbols s).Pairwise fun a b => a.toNat < b.toNat :=
  allSymbols_ascending.sublist List.filter_sublist

theorem presentSymbols_nodup : (presentSymbols s).Nodup :=
  (presentSymbols_ascending s).imp fun h e => (congrArg BitVec.toNat e).not_lt h

/-- The table in order, each entry with its index, is the entries of all symbols. -/
theorem ft_zipIdx_eq : s.ft.toList.zipIdx = allSymbols.map fun b => (ftAt s b, b.toNat) := by
  refine List.ext_getElem (by simp [length_allSymbols]) fun i hi hi' => ?_
  rw [List.getElem_zipIdx, List.getElem_map, Vector.getElem_toList, toNat_getElem_allSymbols, Nat.zero_add]
  simp only [ftAt, toNat_getElem_allSymbols]

/-- The model's list of entries is the present symbols, each with its count. -/
theorem presentEntries_eq : presentEntries s.ft = (presentSymbols s).map fun b => (b, (ftAt s b).count) := by
  rw [presentEntries, ft_zipIdx_eq, List.filterMap_map, presentSymbols, ← List.filterMap_eq_map,
    List.filterMap_filter]
  refine List.filterMap_congr fun b _ => ?_
  simp

theorem length_presentSymbols :
    (presentSymbols s).length = (Finset.univ.filter fun b : Byte => (ftAt s b).present = true).card := by
  rw [← List.toFinset_card_of_nodup (presentSymbols_nodup s)]
  congr 1
  ext b
  simp [mem_presentSymbols]

/-- The symbol at position `k` of the ascending list has exactly `k` present symbols below it: those before it. -/
theorem presentBelow_getElem_presentSymbols {k : Nat} (hk : k < (presentSymbols s).length) :
    presentBelow s (presentSymbols s)[k] = k := by
  have hlt := List.pairwise_iff_getElem.mp (presentSymbols_ascending s)
  have hbelow : (Finset.univ.filter fun c : Byte =>
      (ftAt s c).present = true ∧ c.toNat < (presentSymbols s)[k].toNat) = ((presentSymbols s).take k).toFinset := by
    ext c
    simp only [Finset.mem_filter, Finset.mem_univ, true_and, List.mem_toFinset, List.mem_take_iff_getElem,
      ← mem_presentSymbols]
    constructor
    · rintro ⟨hc, hck⟩
      obtain ⟨j, hj, rfl⟩ := List.mem_iff_getElem.mp hc
      have hjk : j < k := by
        rcases Nat.lt_trichotomy j k with h | rfl | h
        · exact h
        · exact absurd hck (Nat.lt_irrefl _)
        · exact absurd hck (hlt k j hk hj h).asymm
      exact ⟨j, by omega, rfl⟩
    · rintro ⟨j, hj, rfl⟩
      exact ⟨List.getElem_mem _, hlt j k (by omega) hk (by omega)⟩
  rw [presentBelow, hbelow, List.toFinset_card_of_nodup ((presentSymbols_nodup s).sublist (List.take_sublist ..)),
    List.length_take, Nat.min_eq_left hk.le]

/-- FT_GET past the last present symbol (R108). -/
theorem execFtGet_of_length_le {k : BitVec 9} (h : (presentSymbols s).length ≤ k.toNat) :
    execFtGet k s = .next (raiseError .badIndex (zext k) s) := by
  have hnone : (presentEntries s.ft)[k.toNat]? = none := by
    rw [presentEntries_eq]
    exact List.getElem?_eq_none (by rwa [List.length_map])
  rw [execFtGet, hnone]

/-- FT_GET of a present symbol's position (R108). -/
theorem execFtGet_of_lt_length {k : BitVec 9} (h : k.toNat < (presentSymbols s).length) :
    execFtGet k s = .next (complete { s with
      result0 := zext (presentSymbols s)[k.toNat], result1 := (ftAt s (presentSymbols s)[k.toNat]).count }) := by
  have hsome : (presentEntries s.ft)[k.toNat]? =
      some ((presentSymbols s)[k.toNat], (ftAt s (presentSymbols s)[k.toNat]).count) := by
    rw [presentEntries_eq, List.getElem?_map, List.getElem?_eq_getElem h, Option.map_some]
  rw [execFtGet, hsome]

/-- TBL_SIZE's count of a table without present entries. -/
theorem nSym_eq_zero_of_absent (h : ∀ b, (ftAt s b).present = false) : nSym s = 0 := by
  rw [nSym_eq_card, Finset.card_eq_zero, Finset.filter_eq_empty_iff]
  exact fun b _ => Bool.eq_false_iff.mp (h b)

end

/-! ### FT_COUNT phase by phase (R105) -/

section
variable {s : State} {b : Byte} {rest : List Byte}

theorem execFtCount_of_start (h : s.ph = .start) : execFtCount s = .next (startStream s.carg (invalidate s)) := by
  rw [execFtCount, h]

theorem execFtCount_of_run (h : s.ph = .run) : execFtCount s = ftCountRun s := by
  rw [execFtCount, h]

theorem ftCountRun_of_cnt_eq_zero (h : s.cnt = 0) : ftCountRun s = .next (complete s) := if_pos h

theorem ftCountRun_of_nil (hcnt : s.cnt ≠ 0) (hinq : s.inq = []) : ftCountRun s = .next s := by
  rw [ftCountRun, if_neg hcnt, hinq]

theorem ftCountRun_of_max (hcnt : s.cnt ≠ 0) (hinq : s.inq = b :: rest) (hmax : (ftAt s b).count = 0xFFFFFFFF) :
    ftCountRun s = .next (raiseError .countOvf (zext b) s) := by
  rw [ftCountRun, if_neg hcnt, hinq]
  exact if_pos hmax

theorem ftCountRun_of_not_max (hcnt : s.cnt ≠ 0) (hinq : s.inq = b :: rest) (hmax : (ftAt s b).count ≠ 0xFFFFFFFF) :
    ftCountRun s = .next (ftSet b { present := true, count := (ftAt s b).count + 1 }
      { s with inq := rest, cnt := s.cnt - 1 }) := by
  rw [ftCountRun, if_neg hcnt, hinq]
  exact if_neg hmax

end

end Sys2Proof.Machine
end

section
/-! PROOFS. The statements about the frequency table of spec/41_frequency.md. -/

namespace Sys2Proof.Proofs

open Sys2Proof.Machine

/-- Settles O30: FT_GET reads the ascending list of the present symbols at position `k`. -/
theorem ftGetFindsTheKthPresentEntry : Obligations.FtGetFindsTheKthPresentEntry := by
  unfold Obligations.FtGetFindsTheKthPresentEntry
  refine ⟨fun k => ?_, fun s k => ⟨fun h => ?_, fun h => ?_⟩⟩
  · obtain ⟨-, -, -, -, -, -, hftGet, -⟩ := decodeFollowsTheOpcodeMap (0x13#8 ++ 0#15 ++ k)
    exact (hftGet k).mpr (append_operand_spells _ k)
  · rw [← length_presentSymbols] at h
    exact execFtGet_of_length_le s h
  · rw [← length_presentSymbols] at h
    exact ⟨(presentSymbols s)[k.toNat], (mem_presentSymbols s).mp (List.getElem_mem h),
      presentBelow_getElem_presentSymbols s h, execFtGet_of_lt_length s h⟩

/-- Settles O26: every entry of the new table is the same absent one. -/
theorem ftClearEmptiesTheTable : Obligations.FtClearEmptiesTheTable := by
  unfold Obligations.FtClearEmptiesTheTable
  obtain ⟨-, -, -, hftClear, -⟩ := decodeFollowsTheOpcodeMap 0x10000000
  refine ⟨hftClear.mpr rfl, fun s => ⟨_, rfl, rfl, ?_⟩⟩
  have hentry (b : Byte) :
      ftAt (complete (invalidate { s with ft := Vector.replicate 256 FtEntry.zero })) b = FtEntry.zero :=
    Vector.getElem_replicate ..
  refine ⟨hentry, (busReadValue_regOffset .tblSize _).trans ?_⟩
  exact congrArg (BitVec.ofNat 32) (nSym_eq_zero_of_absent _ fun b => congrArg FtEntry.present (hentry b))

/-- Settles O27, by the start part and the four outcomes of the RUN step. -/
theorem ftCountSteps : Obligations.FtCountSteps := by
  unfold Obligations.FtCountSteps
  obtain ⟨-, -, -, -, hftCount, -⟩ := decodeFollowsTheOpcodeMap 0x11000000
  have hmax (c : Word) : c = 0xFFFFFFFF ↔ c.toNat = 2 ^ 32 - 1 := BitVec.toNat_inj.symm
  refine ⟨hftCount.mpr rfl, fun s => ⟨execFtCount_of_start, fun hph hcnt => ?_, fun hph hcnt hinq => ?_,
    fun b rest hph hcnt hinq hovf => ?_, fun b rest hph hcnt hinq hroom => ?_⟩⟩
  · exact (execFtCount_of_run hph).trans (ftCountRun_of_cnt_eq_zero hcnt)
  · exact (execFtCount_of_run hph).trans (ftCountRun_of_nil hcnt hinq)
  · exact (execFtCount_of_run hph).trans (ftCountRun_of_max hcnt hinq ((hmax _).mpr hovf))
  · refine ⟨_, (execFtCount_of_run hph).trans (ftCountRun_of_not_max hcnt hinq (hroom ∘ (hmax _).mp)), rfl, ?_⟩
    refine ⟨by rw [ftAt_ftSet, if_pos rfl], ?_, fun c hc => by rw [ftAt_ftSet, if_neg hc]; rfl⟩
    have hlt : (ftAt s b).count.toNat + 1 < 2 ^ 32 := by
      have := (ftAt s b).count.isLt
      omega
    rw [ftAt_ftSet, if_pos rfl]
    exact BitVec.toNat_add_of_lt hlt

/-- Settles O29: a present symbol raises; otherwise the write of its entry leaves the other entries. -/
theorem ftLoadAddsOneEntry : Obligations.FtLoadAddsOneEntry := by
  unfold Obligations.FtLoadAddsOneEntry
  refine ⟨fun x => ?_, fun s x => ⟨fun h => if_pos h, fun h => ?_⟩⟩
  · obtain ⟨-, -, -, -, -, hftLoad, -⟩ := decodeFollowsTheOpcodeMap (0x12#8 ++ 0#16 ++ x)
    exact (hftLoad x).mpr (append_operand_spells _ x)
  · have hentry := ftAt_ftSet x (s := s) (e := { present := true, count := s.carg })
    exact ⟨_, if_neg (Bool.eq_false_iff.mp h), rfl, (hentry x).trans (if_pos rfl),
      fun c hc => (hentry c).trans (if_neg hc)⟩

/-- Settles O31: RESULT0 is the present bit as a word. -/
theorem ftReadAnswersTheEntry : Obligations.FtReadAnswersTheEntry := by
  unfold Obligations.FtReadAnswersTheEntry
  refine ⟨fun x => ?_, fun s x => ?_⟩
  · obtain ⟨-, -, -, -, -, -, -, hftRead, -⟩ := decodeFollowsTheOpcodeMap (0x14#8 ++ 0#16 ++ x)
    exact (hftRead x).mpr (append_operand_spells _ x)
  · have hbit (p : Bool) : zext (BitVec.ofBool p) = if p = true then 1 else 0 := by cases p <;> rfl
    rw [← hbit]
    rfl

end Sys2Proof.Proofs
end

section
/-! SUPPORT. The codes of a tree (spec/42_tree_code.md R118): a path as a number, the code table of a list of paths, and
the leaves of a tree of the invariant's shape with the paths that lead to them; and the words in which NODE_READ and
CODE_READ report (R120, R121). -/

namespace Sys2Proof.Machine

/-- A number that fits a bit vector is its value. -/
theorem toNat_ofNat_of_lt {n v : Nat} (h : v < 2 ^ n) : (BitVec.ofNat n v).toNat = v :=
  (BitVec.toNat_ofNat ..).trans (Nat.mod_eq_of_lt h)

/-! ### A path as a number (R118) -/

section
variable (p : List Bool)

/-- The fold of `pathValue` from any start: the start's bits stand above the path's. -/
theorem foldl_path_eq (a : Nat) : p.foldl (fun a b => 2 * a + b.toNat) a = 2 ^ p.length * a + pathValue p := by
  induction p generalizing a with
  | nil => simp [pathValue]
  | cons b p ih =>
    rw [pathValue, List.foldl_cons, List.foldl_cons, ih, ih (2 * 0 + b.toNat), List.length_cons, pow_succ]
    ring

/-- The first step of a path is the highest bit of its number. -/
theorem pathValue_cons (b : Bool) : pathValue (b :: p) = 2 ^ p.length * b.toNat + pathValue p := by
  rw [pathValue, List.foldl_cons, foldl_path_eq, Nat.mul_zero, Nat.zero_add]

theorem pathValue_lt : pathValue p < 2 ^ p.length := by
  induction p with
  | nil => decide
  | cons b p ih =>
    have hb : 2 ^ p.length * b.toNat ≤ 2 ^ p.length * 1 := Nat.mul_le_mul_left _ (Bool.toNat_le b)
    rw [pathValue_cons, List.length_cons, pow_succ]
    omega

/-- A bit string does not see the bits above its length. -/
theorem bitString_two_pow_mul_add {n m : Nat} (h : n ≤ m) (a : Nat) {v : Nat} (hv : v < 2 ^ m) :
    bitString n (2 ^ m * a + v) = bitString n v := by
  induction n with
  | zero => rfl
  | succ n ih =>
    rw [bitString, bitString, Nat.testBit_two_pow_mul_add a hv, if_pos (Nat.lt_of_succ_le h), ih (by omega)]

/-- The number of a path, written with the path's length, is the path. -/
theorem bitString_pathValue : bitString p.length (pathValue p) = p := by
  induction p with
  | nil => rfl
  | cons b p ih =>
    have hlt := pathValue_lt p
    have hhigh : (2 ^ p.length * b.toNat + pathValue p).testBit p.length = b := by
      rw [Nat.testBit_two_pow_mul_add _ hlt, if_neg (Nat.lt_irrefl _), Nat.sub_self]
      cases b <;> rfl
    rw [pathValue_cons, List.length_cons, bitString, hhigh, bitString_two_pow_mul_add le_rfl _ hlt, ih]

variable {p}

/-- A path of at most 255 steps fits the fields of a code entry. -/
theorem pathCode_of_length_le (h : p.length ≤ 255) :
    (pathCode p).len.toNat = p.length ∧ (pathCode p).bits.toNat = pathValue p := by
  have hbits : pathValue p < 2 ^ 255 := (pathValue_lt p).trans_le (Nat.pow_le_pow_right (by decide) h)
  exact ⟨toNat_ofNat_of_lt (by omega), toNat_ofNat_of_lt hbits⟩

end

/-! ### The code table of a list of paths (R118) -/

theorem codeTable_concat (ps : List (Byte × List Bool)) (x : Byte × List Bool) :
    codeTable (ps ++ [x]) = (codeTable ps).set x.1.toNat (pathCode x.2) x.1.isLt := by
  rw [codeTable, List.foldl_concat]
  rfl

/-- A symbol with a path in the list has the code of such a path, and one without has the empty entry. -/
theorem codeTable_entry (ps : List (Byte × List Bool)) (b : Byte) :
    (∃ p, (b, p) ∈ ps ∧ (codeTable ps)[b.toNat]'b.isLt = pathCode p) ∨
    ((∀ p, (b, p) ∉ ps) ∧ (codeTable ps)[b.toNat]'b.isLt = CodeEntry.zero) := by
  induction ps using List.reverseRecOn with
  | nil => exact .inr ⟨fun _ => List.not_mem_nil, Vector.getElem_replicate ..⟩
  | append_singleton ps x ih =>
    rw [codeTable_concat, Vector.getElem_set]
    by_cases hx : x.1.toNat = b.toNat
    · obtain rfl : x.1 = b := BitVec.eq_of_toNat_eq hx
      exact .inl ⟨x.2, by simp, if_pos rfl⟩
    · have hmem (p : List Bool) : (b, p) ∈ ps ++ [x] ↔ (b, p) ∈ ps := by
        have hne : (b, p) ≠ x := fun h => hx (h ▸ rfl)
        simp [hne]
      simpa only [hmem, if_neg hx] using ih

/-- The longest length is one of the lengths, and no length exceeds it. -/
theorem longestCode_spec (t : Vector CodeEntry 256) :
    (∀ b : Byte, (t[b.toNat]'b.isLt).len.toNat ≤ longestCode t) ∧
    ∃ b : Byte, (t[b.toNat]'b.isLt).len.toNat = longestCode t := by
  have hmax : (0 :: t.toList.map fun e => e.len.toNat).max? = some (longestCode t) := by
    rw [List.max?_cons', List.foldl_map, longestCode]
  obtain ⟨hmem, hle⟩ := List.max?_eq_some_iff.mp hmax
  have hbound (b : Byte) : (t[b.toNat]'b.isLt).len.toNat ≤ longestCode t :=
    hle _ (List.mem_cons_of_mem _ (List.mem_map.mpr ⟨_, Vector.mem_toList_iff.mpr (Vector.getElem_mem _), rfl⟩))
  refine ⟨hbound, ?_⟩
  rcases List.mem_cons.mp hmem with hzero | hmem
  · have h0 := hbound 0
    exact ⟨0, by omega⟩
  · obtain ⟨e, he, hlen⟩ := List.mem_map.mp hmem
    obtain ⟨i, hi, rfl⟩ := Vector.mem_iff_getElem.mp (Vector.mem_toList_iff.mp he)
    exact ⟨BitVec.ofFin ⟨i, hi⟩, hlen⟩

/-- The longest length fits a result register. -/
theorem toNat_ofNat_longestCode (t : Vector CodeEntry 256) :
    (BitVec.ofNat 32 (longestCode t)).toNat = longestCode t := by
  obtain ⟨-, b, hb⟩ := longestCode_spec t
  have hlt := (t[b.toNat]'b.isLt).len.isLt
  exact toNat_ofNat_of_lt (by omega)

/-- A table with a code for exactly the present symbols holds `n_sym` codes. -/
theorem codeCount_eq_nSym {s : State} {t : Vector CodeEntry 256}
    (h : ∀ b, ((t[b.toNat]'b.isLt).len != 0) = (ftAt s b).present) : codeCount t = nSym s := by
  have hflags : t.toList.map (fun e => e.len != 0) = s.ft.toList.map fun e => e.present := by
    refine List.ext_getElem (by simp) fun i hi hi' => ?_
    rw [List.getElem_map, List.getElem_map, Vector.getElem_toList, Vector.getElem_toList]
    exact h (BitVec.ofFin ⟨i, by simpa using hi⟩)
  have hcount := congrArg (List.countP id) hflags
  rwa [List.countP_map, List.countP_map] at hcount

/-! ### Following a path (R118) -/

section
variable {s : State} {i j : NodeIdx} {e : NodeEntry} {b : Bool} {p q : List Bool}

theorem follow_cons_of_leaf (he : nodeAt s i = some e) (hl : e.leaf = true) : follow s i (b :: p) = none := by
  rw [follow, he]
  exact if_pos hl

theorem follow_cons_of_internal (he : nodeAt s i = some e) (hl : e.leaf = false) :
    follow s i (b :: p) = follow s (if b then e.right else e.left) p := by
  rw [follow, he]
  exact if_neg (by simp [hl])

theorem follow_append (h : follow s i p = some j) : follow s i (p ++ q) = follow s j q := by
  induction p generalizing i with
  | nil =>
    cases h
    rfl
  | cons b p ih =>
    cases he : nodeAt s i with
    | none => simp [follow, he] at h
    | some e =>
      cases hl : e.leaf with
      | true => simp [follow_cons_of_leaf he hl] at h
      | false =>
        rw [follow_cons_of_internal he hl] at h
        rw [List.cons_append, follow_cons_of_internal he hl]
        exact ih h

end

/-! ### The leaves under a node -/

section
variable {s : State} {i : NodeIdx} {e : NodeEntry} {p : List Bool} {x : Byte}

/-- Path `p` leads from node `i` to a leaf of symbol `x`. -/
def LeadsToLeaf (s : State) (i : NodeIdx) (p : List Bool) (x : Byte) : Prop :=
  ∃ j e, follow s i p = some j ∧ nodeAt s j = some e ∧ e.leaf = true ∧ e.sym = x

theorem leadsToLeaf_of_leaf (he : nodeAt s i = some e) (hl : e.leaf = true) :
    LeadsToLeaf s i p x ↔ p = [] ∧ e.sym = x := by
  cases p with
  | nil => simp [LeadsToLeaf, follow, he, hl]
  | cons b p => simp [LeadsToLeaf, follow_cons_of_leaf he hl]

theorem leadsToLeaf_of_internal (he : nodeAt s i = some e) (hl : e.leaf = false) :
    LeadsToLeaf s i p x ↔
      ∃ q, (p = false :: q ∧ LeadsToLeaf s e.left q x) ∨ (p = true :: q ∧ LeadsToLeaf s e.right q x) := by
  cases p with
  | nil => simp [LeadsToLeaf, follow, he, hl]
  | cons b p => cases b <;> simp [LeadsToLeaf, follow_cons_of_internal he hl]

theorem leafPaths_of_leaf (he : nodeAt s i = some e) (hl : e.leaf = true) (k : Nat) :
    leafPaths s.node (k + 1) i p = some [(e.sym, p)] := by
  simp only [nodeAt] at he
  simp only [leafPaths, he, hl, if_true]

theorem leafPaths_of_internal {k : Nat} {ls rs : List (Byte × List Bool)} (he : nodeAt s i = some e)
    (hl : e.leaf = false) (hleft : leafPaths s.node k e.left (p ++ [false]) = some ls)
    (hright : leafPaths s.node k e.right (p ++ [true]) = some rs) :
    leafPaths s.node (k + 1) i p = some (ls ++ rs) := by
  simp only [nodeAt] at he
  simp [leafPaths, he, hl, hleft, hright]

end

/-! ### Trees of the invariant's shape (R116) -/

namespace TreeShape

section
variable {s : State} {i j : NodeIdx} {p : List Bool} {x : Byte} (hs : TreeShape s)
include hs

theorem root_add_two : s.root.toNat + 2 = 2 * nSym s := by
  obtain ⟨hpos, hcount, hroot, -⟩ := hs
  omega

theorem lt_nodeCount_iff : i.toNat < s.nodeCount.toNat ↔ i.toNat ≤ s.root.toNat := by
  rw [← hs.rootLast, Nat.lt_succ_iff]

/-- A node of the tree is the leaf of the present symbol at its own index, or has two children before it. -/
theorem node_cases (hi : i.toNat ≤ s.root.toNat) :
    ∃ e, nodeAt s i = some e ∧
      ((i.toNat < nSym s ∧ e.leaf = true ∧ (presentSymbols s)[i.toNat]? = some e.sym) ∨
      (nSym s ≤ i.toNat ∧ e.leaf = false ∧ e.left.toNat < i.toNat ∧ e.right.toNat < i.toNat)) := by
  have hroot := hs.root_add_two
  have hsize := nSym_le s
  have hlt : i.toNat < 511 := by omega
  refine ⟨_, nodeAt_of_lt s i hlt, ?_⟩
  rcases Nat.lt_or_ge i.toNat (nSym s) with hlow | hhigh
  · obtain ⟨hleaf, -, -, e, he, hsym, -⟩ := hs.leaves ⟨i.toNat, hlt⟩ hlow
    rw [presentEntries_eq, List.getElem?_map] at he
    obtain ⟨y, hy, rfl⟩ := Option.map_eq_some_iff.mp he
    exact .inl ⟨hlow, hleaf, hy.trans (congrArg some hsym.symm)⟩
  · obtain ⟨hleaf, -, hleft, hright, -⟩ := hs.internals ⟨i.toNat, hlt⟩ hhigh (hs.lt_nodeCount_iff.mpr hi)
    exact .inr ⟨hhigh, hleaf, hleft, hright⟩

/-- The code generator's traversal of a subtree finds its leaves, each with the path to it. -/
theorem leafPaths_spec {k : Nat} (hi : i.toNat ≤ s.root.toNat) (hk : i.toNat < k) (p : List Bool) :
    ∃ ps, leafPaths s.node k i p = some ps ∧ ∀ x q, (x, q) ∈ ps ↔ ∃ r, q = p ++ r ∧ LeadsToLeaf s i r x := by
  induction k generalizing i p with
  | zero => omega
  | succ k ih =>
    obtain ⟨e, he, ⟨-, hleaf, -⟩ | ⟨-, hleaf, hleft, hright⟩⟩ := hs.node_cases hi
    · refine ⟨_, leafPaths_of_leaf he hleaf k, fun x q => ?_⟩
      simp [leadsToLeaf_of_leaf he hleaf, and_comm, eq_comm]
    · obtain ⟨ls, hls, hmemLeft⟩ := ih (i := e.left) (by omega) (by omega) (p ++ [false])
      obtain ⟨rs, hrs, hmemRight⟩ := ih (i := e.right) (by omega) (by omega) (p ++ [true])
      refine ⟨_, leafPaths_of_internal he hleaf hls hrs, fun x q => ?_⟩
      rw [List.mem_append, hmemLeft, hmemRight]
      simp only [leadsToLeaf_of_internal he hleaf, List.append_assoc, List.singleton_append]
      constructor
      · rintro (⟨r, rfl, h⟩ | ⟨r, rfl, h⟩)
        · exact ⟨_, rfl, r, .inl ⟨rfl, h⟩⟩
        · exact ⟨_, rfl, r, .inr ⟨rfl, h⟩⟩
      · rintro ⟨_, rfl, r, ⟨rfl, h⟩ | ⟨rfl, h⟩⟩
        · exact .inl ⟨r, rfl, h⟩
        · exact .inr ⟨r, rfl, h⟩

/-- The paths CODE_GEN finds are the code paths of R118. -/
theorem codePaths_spec :
    ∃ r ps, nodeAt s s.root = some r ∧ codePaths s r = some ps ∧ ∀ x p, (x, p) ∈ ps ↔ IsCodePath s x p := by
  obtain ⟨r, hr, ⟨-, hleaf, -⟩ | ⟨-, hleaf, -⟩⟩ := hs.node_cases le_rfl
  · refine ⟨r, _, hr, if_pos hleaf, fun x p => ?_⟩
    simp only [List.mem_singleton, Prod.mk.injEq]
    constructor
    · rintro ⟨rfl, rfl⟩
      exact ⟨s.root, r, hr, hleaf, rfl, .inr ⟨rfl, rfl⟩⟩
    · rintro ⟨j, e, he, -, rfl, ⟨hne, hp⟩ | ⟨rfl, rfl⟩⟩
      · cases p with
        | nil => exact absurd (Option.some.inj hp).symm hne
        | cons b p => simp [follow_cons_of_leaf hr hleaf] at hp
      · exact ⟨congrArg NodeEntry.sym (Option.some.inj (he.symm.trans hr)), rfl⟩
  · have hroot := hs.root_add_two
    have hsize := nSym_le s
    obtain ⟨ps, hps, hmem⟩ := hs.leafPaths_spec (k := 511) le_rfl (by omega) []
    refine ⟨r, ps, hr, ?_, fun x p => (hmem x p).trans ?_⟩
    · rw [codePaths, hleaf]
      exact hps
    · simp only [List.nil_append, exists_eq_left']
      constructor
      · rintro ⟨j, e, hp, he, hl, hx⟩
        refine ⟨j, e, he, hl, hx, .inl ⟨?_, hp⟩⟩
        rintro rfl
        simp [Option.some.inj (hr.symm.trans he), hl] at hleaf
      · rintro ⟨j, e, he, hl, hx, ⟨-, hp⟩ | ⟨rfl, -⟩⟩
        · exact ⟨j, e, hp, he, hl, hx⟩
        · simp [Option.some.inj (hr.symm.trans he), hl] at hleaf

/-- Each step of a path goes to a smaller index, and only from an internal node: one from index `n_sym` on. -/
theorem follow_bound (hi : i.toNat ≤ s.root.toNat) (h : follow s i p = some j) :
    p.length + max j.toNat (nSym s - 1) ≤ max i.toNat (nSym s - 1) := by
  induction p generalizing i with
  | nil =>
    cases h
    simp
  | cons b p ih =>
    obtain ⟨e, he, ⟨-, hleaf, -⟩ | ⟨hlow, hleaf, hleft, hright⟩⟩ := hs.node_cases hi
    · simp [follow_cons_of_leaf he hleaf] at h
    · rw [follow_cons_of_internal he hleaf] at h
      have hchild : (if b then e.right else e.left).toNat < i.toNat := by cases b <;> assumption
      have htail := ih (by omega) h
      rw [List.length_cons]
      omega

/-- A node before ROOT is the left or the right child of an internal node after it. -/
theorem exists_parent (hj : j.toNat < s.root.toNat) :
    ∃ i e, i.toNat ≤ s.root.toNat ∧ nodeAt s i = some e ∧ e.leaf = false ∧ j.toNat < i.toNat ∧
      ∃ b : Bool, (if b then e.right else e.left) = j := by
  obtain ⟨k, hk, hleaf, hchild⟩ := hs.parents ⟨j.toNat, by omega⟩ hj
  have hi : (BitVec.ofNat 9 k.val).toNat = k.val := toNat_ofNat_of_lt (by omega)
  have hle : (BitVec.ofNat 9 k.val).toNat ≤ s.root.toNat := hs.lt_nodeCount_iff.mp (by rwa [hi])
  have hnode : nodeAt s (BitVec.ofNat 9 k.val) = some s.node[k] := by simp [nodeAt, hi]
  obtain ⟨e, he, ⟨-, hl, -⟩ | ⟨-, hl, hleft, hright⟩⟩ := hs.node_cases hle
  · simp [Option.some.inj (hnode.symm.trans he), hl] at hleaf
  · rw [Option.some.inj (hnode.symm.trans he)] at hchild
    rcases hchild with h | h
    · exact ⟨_, e, hle, he, hl, h.symm.trans_lt hleft, false, BitVec.eq_of_toNat_eq h⟩
    · exact ⟨_, e, hle, he, hl, h.symm.trans_lt hright, true, BitVec.eq_of_toNat_eq h⟩

/-- Every node of the tree is reached from ROOT, since its parent is. -/
theorem exists_follow (hj : j.toNat ≤ s.root.toNat) : ∃ p, follow s s.root p = some j := by
  induction hd : s.root.toNat - j.toNat using Nat.strong_induction_on generalizing j with
  | _ d ih =>
    rcases Nat.eq_or_lt_of_le hj with hroot | hbelow
    · exact ⟨[], congrArg some (BitVec.eq_of_toNat_eq hroot.symm)⟩
    · obtain ⟨i, e, hi, he, hl, hlt, b, hchild⟩ := hs.exists_parent hbelow
      obtain ⟨p, hp⟩ := ih _ (by omega) hi rfl
      refine ⟨p ++ [b], ?_⟩
      rw [follow_append hp, follow_cons_of_internal he hl, hchild, follow]

/-- Every present symbol has a leaf in the tree. -/
theorem exists_leaf_of_present (hx : (ftAt s x).present = true) :
    ∃ i e, i.toNat ≤ s.root.toNat ∧ nodeAt s i = some e ∧ e.leaf = true ∧ e.sym = x := by
  obtain ⟨k, hk, hkx⟩ := List.mem_iff_getElem.mp ((mem_presentSymbols s).mpr hx)
  have hsize := nSym_le s
  have hroot := hs.root_add_two
  have hlen : (presentSymbols s).length = nSym s := (length_presentSymbols s).trans (nSym_eq_card s).symm
  have hi : (BitVec.ofNat 9 k).toNat = k := toNat_ofNat_of_lt (by omega)
  have hle : (BitVec.ofNat 9 k).toNat ≤ s.root.toNat := by omega
  obtain ⟨e, he, ⟨-, hl, hsym⟩ | ⟨hlow, -⟩⟩ := hs.node_cases hle
  · rw [hi, List.getElem?_eq_getElem hk, hkx] at hsym
    exact ⟨_, e, hle, he, hl, (Option.some.inj hsym).symm⟩
  · omega

/-- The symbols with a code path are the present ones. -/
theorem exists_isCodePath_iff : (∃ p, IsCodePath s x p) ↔ (ftAt s x).present = true := by
  constructor
  · rintro ⟨p, j, e, he, hl, rfl, hj⟩
    have hle : j.toNat ≤ s.root.toNat := by
      rcases hj with ⟨-, hp⟩ | ⟨rfl, -⟩
      · have hroot := hs.root_add_two
        have hbound := hs.follow_bound le_rfl hp
        omega
      · exact le_rfl
    obtain ⟨f, hf, ⟨-, -, hsym⟩ | ⟨-, hinternal, -⟩⟩ := hs.node_cases hle
    · rw [Option.some.inj (hf.symm.trans he)] at hsym
      exact (mem_presentSymbols s).mp (List.mem_of_getElem? hsym)
    · simp [Option.some.inj (hf.symm.trans he), hl] at hinternal
  · intro hx
    obtain ⟨j, e, hj, he, hl, hsym⟩ := hs.exists_leaf_of_present hx
    rcases eq_or_ne j s.root with hroot | hne
    · exact ⟨[false], j, e, he, hl, hsym, .inr ⟨hroot, rfl⟩⟩
    · obtain ⟨p, hp⟩ := hs.exists_follow hj
      exact ⟨p, j, e, he, hl, hsym, .inl ⟨hne, hp⟩⟩

/-- A code path has 1 to 255 steps. -/
theorem length_isCodePath (h : IsCodePath s x p) : 1 ≤ p.length ∧ p.length ≤ 255 := by
  obtain ⟨j, e, -, -, -, ⟨hne, hp⟩ | ⟨-, rfl⟩⟩ := h
  · have hroot := hs.root_add_two
    have hsize := nSym_le s
    have hbound := hs.follow_bound le_rfl hp
    refine ⟨List.length_pos_of_ne_nil ?_, by omega⟩
    rintro rfl
    exact hne (Option.some.inj hp).symm
  · decide

/-- The entry of a symbol in the table of the tree's paths: a code path with its number for a present symbol, the empty
entry for an absent one. -/
theorem codeTable_codePaths {ps : List (Byte × List Bool)} (hps : ∀ x p, (x, p) ∈ ps ↔ IsCodePath s x p) (x : Byte) :
    ((ftAt s x).present = true ∧ ∃ p, IsCodePath s x p ∧
      ((codeTable ps)[x.toNat]'x.isLt).len.toNat = p.length ∧
      ((codeTable ps)[x.toNat]'x.isLt).bits.toNat = pathValue p) ∨
    ((ftAt s x).present = false ∧ (codeTable ps)[x.toNat]'x.isLt = CodeEntry.zero) := by
  simp only [← Bool.not_eq_true, ← hs.exists_isCodePath_iff, not_exists, ← hps]
  rcases codeTable_entry ps x with ⟨p, hp, hentry⟩ | hnone
  · obtain ⟨-, hlen⟩ := hs.length_isCodePath ((hps x p).mp hp)
    rw [hentry]
    exact .inl ⟨⟨p, hp⟩, p, hp, pathCode_of_length_le hlen⟩
  · exact .inr hnone

/-- The table of the tree's paths holds `n_sym` codes: no code path is empty. -/
theorem codeCount_codePaths {ps : List (Byte × List Bool)} (hps : ∀ x p, (x, p) ∈ ps ↔ IsCodePath s x p) :
    codeCount (codeTable ps) = nSym s := by
  refine codeCount_eq_nSym fun x => ?_
  rcases hs.codeTable_codePaths hps x with ⟨hpresent, p, hp, hlen, -⟩ | ⟨habsent, hzero⟩
  · obtain ⟨hpos, -⟩ := hs.length_isCodePath hp
    rw [hpresent, bne_iff_ne, ne_eq, ← BitVec.toNat_inj, hlen]
    exact Nat.ne_of_gt hpos
  · rw [hzero, habsent]
    rfl

/-- CODE_GEN on a valid tree stores the table of its code paths (R118). -/
theorem execCodeGen_eq (hv : s.treeValid = true) :
    ∃ ps, (∀ x p, (x, p) ∈ ps ↔ IsCodePath s x p) ∧ execCodeGen s = .next (complete { s with
      code := codeTable ps, codesValid := true, mode := .idle
      result0 := BitVec.ofNat 32 (longestCode (codeTable ps))
      result1 := BitVec.ofNat 32 (codeCount (codeTable ps)) }) := by
  obtain ⟨r, ps, hr, hps, hpaths⟩ := hs.codePaths_spec
  exact ⟨ps, hpaths, by simp [execCodeGen, hv, hr, hps]⟩

end

end TreeShape

/-! ### What NODE_READ and CODE_READ report (R120, R121) -/

/-- A word with two operands below the fixed part `p`, `x` in its low bits and `w` above `x`. -/
theorem append_two_operands_spells {l m n : Nat} (p : BitVec l) (w : BitVec m) (x : BitVec n) :
    (p ++ w ++ x) &&& (BitVec.allOnes l ++ 0#m ++ 0#n) = p ++ 0#m ++ 0#n ∧
    x = (p ++ w ++ x).extractLsb' 0 n ∧ w = (p ++ w ++ x).extractLsb' n m := by
  obtain ⟨hfixed, hw⟩ := append_operand_spells p w
  refine ⟨?_, BitVec.extractLsb'_append_eq_right.symm, ?_⟩
  · rw [BitVec.and_append, BitVec.and_zero, hfixed]
  · rw [BitVec.extractLsb'_append_eq_of_le le_rfl, Nat.sub_self]
    exact hw

/-- Two fields of a word with `b` zero bits between them, the upper one shifted past the lower one and the gap. -/
theorem zext_shiftLeft_or_zext {m n : Nat} (b : Nat) (x : BitVec m) (y : BitVec n) :
    (zext x <<< (n + b)) ||| zext y = zext (x ++ 0#b ++ y) := by
  refine BitVec.eq_of_getLsbD_eq fun i hi => ?_
  simp only [BitVec.getLsbD_or, BitVec.getLsbD_shiftLeft, BitVec.getLsbD_setWidth, BitVec.getLsbD_append,
    BitVec.getLsbD_zero]
  by_cases hlow : i < n
  · simp [hlow, hi, show i < n + b by omega]
  · have hy : y.getLsbD i = false := BitVec.getLsbD_of_ge y i (by omega)
    by_cases hgap : i - n < b
    · simp [hlow, hy, hgap, show i < n + b by omega]
    · simp [hlow, hy, hgap, hi, Nat.sub_sub, show ¬ i < n + b by omega, show i - (n + b) < 32 by omega]

/-- RESULT0 of NODE_READ: the leaf flag in bit 31, the symbol in the low byte. -/
theorem zext_flag_or_symbol (l : BitVec 1) (x : Byte) : (zext l <<< 31) ||| zext x = l ++ 0#23 ++ x :=
  (zext_shiftLeft_or_zext 23 l x).trans (BitVec.setWidth_eq _)

/-- RESULT1 of NODE_READ: the children in the two half words. -/
theorem zext_children (right left : NodeIdx) :
    (zext right <<< 16) ||| zext left = 0#7 ++ right ++ 0#7 ++ left := by
  rw [zext_shiftLeft_or_zext 7]
  simp only [BitVec.setWidth_append, BitVec.setWidth_eq_append (show 9 ≤ 16 by decide)]
  rfl

/-- RESULT3 of NODE_READ: the upper byte of the weight. -/
theorem zext_byte (y : Byte) : zext y = 0#24 ++ y := BitVec.setWidth_eq_append (by decide)

section
variable {s : State} {i : NodeIdx} {e : NodeEntry}

theorem execNodeRead_of_nodeCount_le (hv : s.treeValid = true) (hi : s.nodeCount.toNat ≤ i.toNat) :
    execNodeRead i s = .next (raiseError .badIndex (zext i) s) := by
  simp [execNodeRead, hv, hi]

theorem execNodeRead_of_lt_nodeCount (hv : s.treeValid = true) (hi : i.toNat < s.nodeCount.toNat)
    (he : nodeAt s i = some e) :
    execNodeRead i s = .next (complete { s with
      result0 := BitVec.ofBool e.leaf ++ 0#23 ++ e.sym
      result1 := 0#7 ++ e.right ++ 0#7 ++ e.left
      result2 := e.w.extractLsb' 0 32
      result3 := 0#24 ++ e.w.extractLsb' 32 8 }) := by
  rw [← zext_flag_or_symbol, ← zext_children, ← zext_byte]
  simp [execNodeRead, hv, Nat.not_le.mpr hi, he]

/-- Bit `j` of word `w` of a code zero-extended to 256 bits. -/
theorem getLsbD_codeWord (c : BitVec 255) (w : BitVec 3) {j : Nat} (hj : j < 32) :
    ((c.setWidth 256).extractLsb' (32 * w.toNat) 32).getLsbD j = c.getLsbD (32 * w.toNat + j) := by
  have hw := w.isLt
  rw [BitVec.getLsbD_extractLsb', BitVec.getLsbD_setWidth]
  simp [hj, show 32 * w.toNat + j < 256 by omega]

end

end Sys2Proof.Machine
end

section
/-! PROOFS. The statements about tree and codes of spec/42_tree_code.md. -/

namespace Sys2Proof.Proofs

open Sys2Proof.Machine

/-- Settles O35: the table CODE_GEN stores holds a code path of each present symbol, and a path is read back from its
number. -/
theorem codeGenGivesTheTreePaths : Obligations.CodeGenGivesTheTreePaths := by
  unfold Obligations.CodeGenGivesTheTreePaths
  obtain ⟨-, -, -, -, -, -, -, -, -, hcodeGen, -⟩ := decodeFollowsTheOpcodeMap 0x21000000
  refine ⟨hcodeGen.mpr rfl, fun s => ⟨fun hv => if_pos hv, fun hv hs => ?_⟩⟩
  obtain ⟨ps, hps, hexec⟩ := hs.execCodeGen_eq hv
  have hentry := hs.codeTable_codePaths hps
  obtain ⟨hle, b, hb⟩ := longestCode_spec (codeTable ps)
  have hresult0 := toNat_ofNat_longestCode (codeTable ps)
  refine ⟨_, hexec, rfl, fun x hx => ?_, fun x hx => ?_, fun x => ?_, fun x => (hle x).trans_eq hresult0.symm,
    ⟨b, hb.trans hresult0.symm⟩, ?_⟩
  · rcases hentry x with ⟨-, p, hp, hlen, hbits⟩ | ⟨habsent, -⟩
    · obtain ⟨hpos, hmax⟩ := hs.length_isCodePath hp
      refine ⟨p, hp, hpos, hmax, hlen, ?_⟩
      exact (congrArg₂ bitString hlen hbits).trans (bitString_pathValue p)
    · simp [hx] at habsent
  · rcases hentry x with ⟨hpresent, -⟩ | ⟨-, hzero⟩
    · simp [hx] at hpresent
    · exact hzero
  · rcases hentry x with ⟨-, p, -, hlen, hbits⟩ | ⟨-, hzero⟩
    · exact (hbits.trans_lt (pathValue_lt p)).trans_eq (congrArg (2 ^ ·) hlen.symm)
    · exact (congrArg (fun e : CodeEntry => e.bits.toNat < 2 ^ e.len.toNat) hzero).mpr (by decide)
  · have hsize := nSym_le s
    rw [← hs.codeCount_codePaths hps] at hsize ⊢
    exact toNat_ofNat_of_lt (by omega)

/-- Settles O38: the two checks in their order; the fields of RESULT0 and RESULT1 stand side by side. -/
theorem nodeReadAnswersTheNode : Obligations.NodeReadAnswersTheNode := by
  unfold Obligations.NodeReadAnswersTheNode
  refine ⟨fun k => ?_, fun s k => ⟨fun hv => if_pos hv, fun hv hk => ?_, fun hv hk h => ?_⟩⟩
  · obtain ⟨-, -, -, -, -, -, -, -, -, -, hnodeRead, -⟩ := decodeFollowsTheOpcodeMap (0x22#8 ++ 0#15 ++ k)
    exact (hnodeRead k).mpr (append_operand_spells _ k)
  · exact execNodeRead_of_nodeCount_le hv hk
  · exact execNodeRead_of_lt_nodeCount hv hk (nodeAt_of_lt s k h)

/-- Settles O39: a bit of word `W` is the bit of the zero-extended code at the word's offset. -/
theorem codeReadAnswersOneWord : Obligations.CodeReadAnswersOneWord := by
  unfold Obligations.CodeReadAnswersOneWord
  refine ⟨fun x w => ?_, fun s x w => ⟨fun hv => if_pos hv, fun hv => ⟨_, if_neg (by simp [hv]), rfl, fun j => ?_⟩⟩⟩
  · obtain ⟨-, -, -, -, -, -, -, -, -, -, -, hcodeRead, -⟩ :=
      decodeFollowsTheOpcodeMap (0x23#8 ++ 0#13 ++ w ++ x)
    exact (hcodeRead x w).mpr (append_two_operands_spells _ w x)
  · exact getLsbD_codeWord _ w j.isLt

end Sys2Proof.Proofs
end

section
/-! SUPPORT. The packer (spec/43_encode_pack.md): ENC_DATA and ENC_FLUSH phase by phase, and the bit that enters the
accumulator. -/

namespace Sys2Proof.Machine

section
variable {s : State} {b : Byte} {rest : List Byte}

/-- MODE's two bits in ERRINFO when no encode stream is open (R123, R124). -/
theorem zext_modeBits_of_ne_enc {m : Mode} (h : m ≠ .enc) : zext (modeBits m) = if m = .dec then 2 else 0 := by
  cases m with
  | idle | dec => rfl
  | enc => exact absurd rfl h

/-! ### ENC_DATA phase by phase (R123) -/

theorem execEncData_of_not_enc (hph : s.ph = .start) (hm : s.mode ≠ .enc) :
    execEncData s = .next (raiseError .badMode (zext (modeBits s.mode)) s) := by
  rw [execEncData, hph]
  exact if_pos hm

theorem execEncData_of_enc (hph : s.ph = .start) (hm : s.mode = .enc) :
    execEncData s = .next (startStream s.carg s) := by
  rw [execEncData, hph]
  exact if_neg (not_not_intro hm)

theorem execEncData_of_run (hph : s.ph = .run) : execEncData s = encDataRun s := by
  rw [execEncData, hph]

theorem encDataRun_of_outFull (hacc : s.encAccN = 8) (hout : s.outq.length = s.cfg.outDepth.toNat) :
    encDataRun s = .next s := by
  rw [encDataRun, if_pos hacc, if_pos ((outFull_iff s).mpr hout)]

theorem encDataRun_of_full_group (hacc : s.encAccN = 8) (hout : s.outq.length ≠ s.cfg.outDepth.toNat) :
    encDataRun s = .next (emitGroup s) := by
  rw [encDataRun, if_pos hacc, if_neg (mt (outFull_iff s).mp hout)]

theorem encDataRun_of_code_bit (hacc : s.encAccN ≠ 8) (hsr : s.encSrN ≠ 0) : encDataRun s = .next (shiftBit s) := by
  rw [encDataRun, if_neg hacc, if_pos hsr]

theorem encDataRun_of_nil (hacc : s.encAccN ≠ 8) (hsr : s.encSrN = 0) (hcnt : s.cnt ≠ 0) (hinq : s.inq = []) :
    encDataRun s = .next s := by
  rw [encDataRun, if_neg hacc, if_neg (not_not_intro hsr), if_pos hcnt, hinq]

theorem encDataRun_of_no_code (hacc : s.encAccN ≠ 8) (hsr : s.encSrN = 0) (hcnt : s.cnt ≠ 0)
    (hinq : s.inq = b :: rest) (hlen : (codeAt s b).len = 0) :
    encDataRun s = .next (raiseError .noCode (zext b) s) := by
  rw [encDataRun, if_neg hacc, if_neg (not_not_intro hsr), if_pos hcnt, hinq]
  exact if_pos hlen

theorem encDataRun_of_code (hacc : s.encAccN ≠ 8) (hsr : s.encSrN = 0) (hcnt : s.cnt ≠ 0)
    (hinq : s.inq = b :: rest) (hlen : (codeAt s b).len ≠ 0) :
    encDataRun s = .next { s with
      inq := rest, encSr := (codeAt s b).bits, encSrN := (codeAt s b).len, cnt := s.cnt - 1 } := by
  rw [encDataRun, if_neg hacc, if_neg (not_not_intro hsr), if_pos hcnt, hinq]
  exact if_neg hlen

theorem encDataRun_of_cnt_eq_zero (hacc : s.encAccN ≠ 8) (hsr : s.encSrN = 0) (hcnt : s.cnt = 0) :
    encDataRun s = .next (complete s) := by
  rw [encDataRun, if_neg hacc, if_neg (not_not_intro hsr), if_neg (not_not_intro hcnt)]

/-! ### The bit that enters the accumulator (R64, R123) -/

/-- The model's shift and or put a bit in at the right end. -/
theorem shiftLeft_one_or_ofBool {n : Nat} (x : BitVec n) (c : Bool) :
    (x <<< 1) ||| (BitVec.ofBool c).setWidth n = x.shiftConcat c := by
  refine BitVec.eq_of_getLsbD_eq fun i hi => ?_
  cases i with
  | zero => simp [hi]
  | succ i => simp [hi]

/-- The group grows by one bit while it is not full. -/
theorem shiftBit_encAccN (hacc : s.encAccN ≠ 8) : (shiftBit s).encAccN.val = s.encAccN.val + 1 :=
  Fin.val_add_one_of_lt (Fin.lt_last_iff_ne_last.mpr hacc)

/-- The code bit becomes the lowest bit of the byte, whose highest bit is lost. -/
theorem shiftBit_encAcc (s : State) :
    (shiftBit s).encAcc.toNat = (2 * s.encAcc.toNat + (s.encSr.getLsbD (s.encSrN.toNat - 1)).toNat) % 256 := by
  have hconcat : (shiftBit s).encAcc = s.encAcc.shiftConcat (s.encSr.getLsbD (s.encSrN.toNat - 1)) :=
    shiftLeft_one_or_ofBool ..
  rw [hconcat, BitVec.toNat_shiftConcat, Nat.shiftLeft_eq, pow_one, Nat.mul_comm]

/-! ### ENC_FLUSH phase by phase (R124) -/

theorem execEncFlush_of_not_enc (hph : s.ph = .start) (hm : s.mode ≠ .enc) :
    execEncFlush s = .next (raiseError .badMode (zext (modeBits s.mode)) s) := by
  rw [execEncFlush, hph]
  exact if_pos hm

theorem execEncFlush_of_enc (hph : s.ph = .start) (hm : s.mode = .enc) :
    execEncFlush s = .next { s with ph := .run } := by
  rw [execEncFlush, hph]
  exact if_neg (not_not_intro hm)

theorem execEncFlush_of_run (hph : s.ph = .run) : execEncFlush s = encFlushRun s := by
  rw [execEncFlush, hph]

theorem encFlushRun_of_outFull (hacc : s.encAccN ≠ 0) (hout : s.outq.length = s.cfg.outDepth.toNat) :
    encFlushRun s = .next s := by
  rw [encFlushRun, if_pos hacc, if_pos ((outFull_iff s).mpr hout)]

theorem encFlushRun_of_partial_group (hacc : s.encAccN ≠ 0) (hout : s.outq.length ≠ s.cfg.outDepth.toNat) :
    encFlushRun s =
      .next (closeStream (8 - s.encAccN.val) (pushOut (s.encAcc <<< (8 - s.encAccN.val)) s)) := by
  rw [encFlushRun, if_pos hacc, if_neg (mt (outFull_iff s).mp hout)]

theorem encFlushRun_of_no_group (hacc : s.encAccN = 0) : encFlushRun s = .next (closeStream 0 s) := by
  rw [encFlushRun, if_neg (not_not_intro hacc)]

end

end Sys2Proof.Machine
end

section
/-! PROOFS. The statements about encoding and packing of spec/43_encode_pack.md. -/

namespace Sys2Proof.Proofs

open Sys2Proof.Machine

/-- Settles O40: the command is one check of CODES_VALID. -/
theorem encInitOpensAStream : Obligations.EncInitOpensAStream := by
  unfold Obligations.EncInitOpensAStream
  obtain ⟨-, -, -, -, -, -, -, -, -, -, -, -, hencInit, -⟩ := decodeFollowsTheOpcodeMap 0x30000000
  exact ⟨hencInit.mpr rfl, fun s => ⟨fun hv => if_pos hv, fun hv => if_neg (by simp [hv])⟩⟩

/-- Settles O41, by the start part and the seven branches of the RUN step; a code bit enters the accumulator
at its right end. -/
theorem encDataSteps : Obligations.EncDataSteps := by
  unfold Obligations.EncDataSteps
  refine ⟨decode_encode_of_streaming (i := .encData) rfl, fun s => ⟨fun hph hm => ?_, execEncData_of_enc,
    fun hph hacc hout => ?_, fun hph hacc hout => ?_, fun hph hacc hsr => ?_, fun hph hacc hsr hcnt hinq => ?_,
    fun b rest hph hacc hsr hcnt hinq hlen => ?_, fun b rest hph hacc hsr hcnt hinq hlen => ?_,
    fun hph hacc hsr hcnt => ?_⟩⟩
  · rw [← zext_modeBits_of_ne_enc hm]
    exact execEncData_of_not_enc hph hm
  · exact (execEncData_of_run hph).trans (encDataRun_of_outFull hacc hout)
  · exact (execEncData_of_run hph).trans (encDataRun_of_full_group hacc hout)
  · exact ⟨_, (execEncData_of_run hph).trans (encDataRun_of_code_bit hacc hsr), rfl, shiftBit_encAccN hacc,
      shiftBit_encAcc s⟩
  · exact (execEncData_of_run hph).trans (encDataRun_of_nil hacc hsr hcnt hinq)
  · exact (execEncData_of_run hph).trans (encDataRun_of_no_code hacc hsr hcnt hinq hlen)
  · exact (execEncData_of_run hph).trans (encDataRun_of_code hacc hsr hcnt hinq hlen)
  · exact (execEncData_of_run hph).trans (encDataRun_of_cnt_eq_zero hacc hsr hcnt)

/-- Settles O42, by the start part and the three branches of the RUN step; shifting a group to the left end of its
byte multiplies it by a power of 2. -/
theorem encFlushSteps : Obligations.EncFlushSteps := by
  unfold Obligations.EncFlushSteps
  refine ⟨decode_encode_of_streaming (i := .encFlush) rfl, fun s => ⟨fun hph hm => ?_, execEncFlush_of_enc,
    fun hph hacc hout => ?_, fun hph hacc hout => ?_, fun hph hacc => ?_⟩⟩
  · rw [← zext_modeBits_of_ne_enc hm]
    exact execEncFlush_of_not_enc hph hm
  · exact (execEncFlush_of_run hph).trans (encFlushRun_of_outFull hacc hout)
  · have hgroup (k : Nat) : s.encAcc <<< k = BitVec.ofNat 8 (s.encAcc.toNat * 2 ^ k) :=
      congrArg (BitVec.ofNat 8) (Nat.shiftLeft_eq ..)
    rw [← hgroup]
    exact (execEncFlush_of_run hph).trans (encFlushRun_of_partial_group hacc hout)
  · exact (execEncFlush_of_run hph).trans (encFlushRun_of_no_group hacc)

end Sys2Proof.Proofs
end

section
/-! SUPPORT. The decoder (spec/44_decode_unpack.md): the checks of DEC_INIT and DEC_FINISH, DEC_DATA phase by phase,
and the walk of one bit. -/

namespace Sys2Proof.Machine

section
variable {s : State}

/-- MODE's two bits in ERRINFO when no decoding is open (R129, R130). -/
theorem zext_modeBits_of_ne_dec {m : Mode} (h : m ≠ .dec) : zext (modeBits m) = if m = .enc then 1 else 0 := by
  cases m with
  | idle | enc => rfl
  | dec => exact absurd rfl h

/-! ### DEC_INIT check by check (R128) -/

section
variable {p : Byte}

theorem execDecInit_of_pad_gt (hv : s.treeValid = true) (hp : 7 < p.toNat) :
    execDecInit p s = .next (raiseError .badPad (zext p) s) := by
  rw [execDecInit, if_neg (by simp [hv]), if_pos hp]

theorem execDecInit_of_carg_eq_zero (hv : s.treeValid = true) (hp : p.toNat ≤ 7) (hcarg : s.carg = 0) :
    execDecInit p s = .next (raiseError .badLen 0 s) := by
  rw [execDecInit, if_neg (by simp [hv]), if_neg (Nat.not_lt.mpr hp), if_pos hcarg]

theorem execDecInit_of_carg_ne_zero (hv : s.treeValid = true) (hp : p.toNat ≤ 7) (hcarg : s.carg ≠ 0) :
    execDecInit p s = .next (complete { s with
      mode := .dec, decRem := s.carg, pad := BitVec.ofNat 3 p.toNat, decWalk := s.root, decSh := 0, decShN := 0
      symcnt := 0 }) := by
  rw [execDecInit, if_neg (by simp [hv]), if_neg (Nat.not_lt.mpr hp), if_neg hcarg]
  rfl

end

/-! ### The walk of one bit (R129) -/

section
variable {e f : NodeEntry} {nxt : NodeIdx}

theorem walkMove_of_one_at_leaf (he : nodeAt s s.decWalk = some e) (hleaf : e.leaf = true)
    (hbit : s.decSh.getLsbD 7 = true) : walkMove s = .badBit := by
  simp [walkMove, he, hleaf, hbit]

/-- A bit that is no error stays at the leaf, or goes left or right; the node it leads to is emitted or walked to. -/
theorem walkMove_of_child (he : nodeAt s s.decWalk = some e)
    (hnxt : e.leaf = true ∧ s.decSh.getLsbD 7 = false ∧ nxt = s.decWalk ∨
      e.leaf = false ∧ s.decSh.getLsbD 7 = false ∧ nxt = e.left ∨
      e.leaf = false ∧ s.decSh.getLsbD 7 = true ∧ nxt = e.right) (hf : nodeAt s nxt = some f) :
    walkMove s = if f.leaf then .emit f.sym else .move nxt := by
  rcases hnxt with ⟨hleaf, hbit, rfl⟩ | ⟨hleaf, hbit, rfl⟩ | ⟨hleaf, hbit, rfl⟩
  · obtain rfl : e = f := Option.some.inj (he.symm.trans hf)
    simp only [walkMove, he, hleaf, hbit, Bool.and_false, Bool.false_eq_true, if_false, if_true]
  · simp only [walkMove, he, hleaf, hbit, hf, Bool.and_false, Bool.false_eq_true, if_false]
  · simp only [walkMove, he, hleaf, hbit, hf, Bool.and_true, Bool.false_eq_true, if_false, if_true]

end

/-! ### DEC_DATA phase by phase (R129) -/

section
variable {b x : Byte} {rest : List Byte} {nxt : NodeIdx}

theorem execDecData_of_not_dec (hph : s.ph = .start) (hm : s.mode ≠ .dec) :
    execDecData s = .next (raiseError .badMode (zext (modeBits s.mode)) s) := by
  rw [execDecData, hph]
  exact if_pos hm

theorem execDecData_of_decRem_lt (hph : s.ph = .start) (hm : s.mode = .dec) (hrem : s.decRem.toNat < s.carg.toNat) :
    execDecData s = .next (raiseError .decOverrun s.carg s) := by
  rw [execDecData, hph]
  exact (if_neg (not_not_intro hm)).trans (if_pos (BitVec.ult_iff_lt.mpr hrem))

theorem execDecData_of_carg_le (hph : s.ph = .start) (hm : s.mode = .dec) (hrem : s.carg.toNat ≤ s.decRem.toNat) :
    execDecData s = .next (startStream s.carg s) := by
  rw [execDecData, hph]
  exact (if_neg (not_not_intro hm)).trans (if_neg (mt BitVec.ult_iff_lt.mp (Nat.not_lt.mpr hrem)))

theorem execDecData_of_run (hph : s.ph = .run) : execDecData s = decDataRun s := by
  rw [execDecData, hph]

theorem decDataRun_of_badBit (hsh : s.decShN ≠ 0) (hmove : walkMove s = .badBit) :
    decDataRun s = .next (raiseError .decBadbit s.symcnt s) := by
  rw [decDataRun, if_pos hsh, hmove]

theorem decDataRun_of_outFull (hsh : s.decShN ≠ 0) (hmove : walkMove s = .emit x)
    (hout : s.outq.length = s.cfg.outDepth.toNat) : decDataRun s = .next s := by
  rw [decDataRun, if_pos hsh, hmove]
  exact if_pos ((outFull_iff s).mpr hout)

theorem decDataRun_of_emit (hsh : s.decShN ≠ 0) (hmove : walkMove s = .emit x)
    (hout : s.outq.length ≠ s.cfg.outDepth.toNat) :
    decDataRun s = .next (pushOut x (consumeBit { s with symcnt := s.symcnt + 1, decWalk := s.root })) := by
  rw [decDataRun, if_pos hsh, hmove]
  exact if_neg (mt (outFull_iff s).mp hout)

theorem decDataRun_of_move (hsh : s.decShN ≠ 0) (hmove : walkMove s = .move nxt) :
    decDataRun s = .next (consumeBit { s with decWalk := nxt }) := by
  rw [decDataRun, if_pos hsh, hmove]

theorem decDataRun_of_nil (hsh : s.decShN = 0) (hcnt : s.cnt ≠ 0) (hinq : s.inq = []) :
    decDataRun s = .next s := by
  rw [decDataRun, if_neg (not_not_intro hsh), if_pos hcnt, hinq]

theorem decDataRun_of_cons (hsh : s.decShN = 0) (hcnt : s.cnt ≠ 0) (hinq : s.inq = b :: rest) :
    decDataRun s = .next { s with
      inq := rest, cnt := s.cnt - 1, decRem := s.decRem - 1, decSh := b
      decShN := payloadBits (s.decRem - 1) s.pad } := by
  rw [decDataRun, if_neg (not_not_intro hsh), if_pos hcnt, hinq]

theorem decDataRun_of_cnt_eq_zero (hsh : s.decShN = 0) (hcnt : s.cnt = 0) :
    decDataRun s = .next (complete s) := by
  rw [decDataRun, if_neg (not_not_intro hsh), if_neg (not_not_intro hcnt)]

/-- Only the byte that leaves none to come is trimmed by PAD. -/
theorem payloadBits_sub_one (rem : Word) (pad : BitVec 3) :
    (payloadBits (rem - 1) pad).val = if rem = 1 then 8 - pad.toNat else 8 := by
  rw [payloadBits]
  simp only [sub_eq_zero]
  split <;> rfl

end

/-! ### DEC_FINISH check by check (R130) -/

theorem execDecFinish_of_not_dec (hm : s.mode ≠ .dec) :
    execDecFinish s = .next (raiseError .badMode (zext (modeBits s.mode)) s) :=
  if_pos hm

theorem execDecFinish_of_decRem_ne_zero (hm : s.mode = .dec) (hrem : s.decRem ≠ 0) :
    execDecFinish s = .next (raiseError .decTrunc s.decRem s) := by
  rw [execDecFinish, if_neg (not_not_intro hm), if_pos hrem]

theorem execDecFinish_of_partial_symbol (hm : s.mode = .dec) (hrem : s.decRem = 0)
    (hpartial : s.decShN ≠ 0 ∨ s.decWalk ≠ s.root) :
    execDecFinish s = .next (raiseError .decPartial (zext s.decWalk) s) := by
  rw [execDecFinish, if_neg (not_not_intro hm), if_neg (not_not_intro hrem), if_pos hpartial]

theorem execDecFinish_of_end (hm : s.mode = .dec) (hrem : s.decRem = 0) (hsh : s.decShN = 0)
    (hwalk : s.decWalk = s.root) :
    execDecFinish s = .next (complete { s with mode := .idle, result0 := s.symcnt }) := by
  rw [execDecFinish, if_neg (not_not_intro hm), if_neg (not_not_intro hrem), if_neg (by simp [hsh, hwalk])]

end

end Sys2Proof.Machine
end

section
/-! PROOFS. The statements about unpacking and decoding of spec/44_decode_unpack.md. -/

namespace Sys2Proof.Proofs

open Sys2Proof.Machine

/-- Settles O46, by the command's three checks in their order. -/
theorem decInitOpensADecode : Obligations.DecInitOpensADecode := by
  unfold Obligations.DecInitOpensADecode
  refine ⟨fun p => ?_, fun s p => ⟨fun hv => if_pos hv, execDecInit_of_pad_gt, execDecInit_of_carg_eq_zero,
    execDecInit_of_carg_ne_zero⟩⟩
  obtain ⟨-, -, -, -, -, -, -, -, -, -, -, -, -, -, -, hdecInit, -⟩ :=
    decodeFollowsTheOpcodeMap (0x40#8 ++ 0#16 ++ p)
  exact (hdecInit p).mpr (append_operand_spells _ p)

/-- Settles O47, by the start part and the branches of the RUN step; the node a bit leads to is a leaf or the next
node of the walk. -/
theorem decDataSteps : Obligations.DecDataSteps := by
  unfold Obligations.DecDataSteps
  refine ⟨decode_encode_of_streaming (i := .decData) rfl, fun s => ⟨fun hph hm => ?_, execDecData_of_decRem_lt,
    execDecData_of_carg_le, fun e hph hsh he hleaf hbit => ?_, fun e f nxt hph hsh he hnxt hf => ?_,
    fun hph hsh hcnt hinq => ?_, fun b rest hph hsh hcnt hinq => ?_, fun hph hsh hcnt => ?_⟩⟩
  · rw [← zext_modeBits_of_ne_dec hm]
    exact execDecData_of_not_dec hph hm
  · exact (execDecData_of_run hph).trans (decDataRun_of_badBit hsh (walkMove_of_one_at_leaf he hleaf hbit))
  · have hmove := walkMove_of_child he hnxt hf
    have hbits : (s.decShN - 1).val = s.decShN.val - 1 := Fin.val_sub_one_of_ne_zero hsh
    refine ⟨fun hleaf hout => ?_, fun hleaf hout => ?_, fun hinner => ?_⟩
    · rw [if_pos hleaf] at hmove
      exact (execDecData_of_run hph).trans (decDataRun_of_outFull hsh hmove hout)
    · rw [if_pos hleaf] at hmove
      exact ⟨_, (execDecData_of_run hph).trans (decDataRun_of_emit hsh hmove hout), rfl, hbits⟩
    · rw [if_neg (by simp [hinner])] at hmove
      exact ⟨_, (execDecData_of_run hph).trans (decDataRun_of_move hsh hmove), rfl, hbits⟩
  · exact (execDecData_of_run hph).trans (decDataRun_of_nil hsh hcnt hinq)
  · exact ⟨_, (execDecData_of_run hph).trans (decDataRun_of_cons hsh hcnt hinq), rfl, payloadBits_sub_one _ _⟩
  · exact (execDecData_of_run hph).trans (decDataRun_of_cnt_eq_zero hsh hcnt)

/-- Settles O48, by the command's three checks in their order. -/
theorem decFinishChecksTheEnd : Obligations.DecFinishChecksTheEnd := by
  unfold Obligations.DecFinishChecksTheEnd
  obtain ⟨-, -, -, -, -, -, -, -, -, -, -, -, -, -, -, -, -, hdecFinish⟩ := decodeFollowsTheOpcodeMap 0x42000000
  refine ⟨hdecFinish.mpr rfl, fun s => ⟨fun hm => ?_, execDecFinish_of_decRem_ne_zero,
    execDecFinish_of_partial_symbol, execDecFinish_of_end⟩⟩
  rw [← zext_modeBits_of_ne_dec hm]
  exact execDecFinish_of_not_dec hm

end Sys2Proof.Proofs
end

section
/-! SUPPORT. The operand of a command word (R78): written below the fixed part of the word it is read back, and a word
that matches the fixed part is rebuilt from its operand. -/

namespace Sys2Proof.Machine

section
variable {n : Nat} {p mask w : Word}

/-- An operand put into the free low bits of a word is read back from them. -/
theorem extractLsb'_or_operand (hn : n ≤ 32) (hp : p.extractLsb' 0 n = 0) (x : BitVec n) :
    (p ||| zext x).extractLsb' 0 n = x := by
  rw [BitVec.extractLsb'_or, hp, BitVec.extractLsb'_setWidth_of_le (by omega), BitVec.extractLsb'_eq_self]
  exact BitVec.zero_or

/-- A word with the fixed part `p` whose free bits are the low `n` ones is `p` with the word's own operand. -/
theorem or_operand_eq_of_spells (h : w &&& mask = p) (hfree : ~~~mask = zext (BitVec.allOnes n)) :
    p ||| zext (w.extractLsb' 0 n) = w := by
  have hoperand : zext (w.extractLsb' 0 n) = w &&& ~~~mask := by
    rw [hfree]
    refine BitVec.eq_of_getLsbD_eq fun i hi => ?_
    simp [hi, Bool.and_comm]
  rw [hoperand, ← h, ← BitVec.and_or_distrib_left, BitVec.or_not_self, BitVec.and_allOnes]

/-- SW's two operand fields (R78) are the word's low 11 bits. -/
theorem codeRead_fields (w : Word) :
    (zext (w.extractLsb' 8 3) <<< 8) ||| zext (w.extractLsb' 0 8) = zext (w.extractLsb' 0 11) := by
  refine BitVec.eq_of_getLsbD_eq fun i hi => ?_
  simp only [BitVec.getLsbD_or, BitVec.getLsbD_shiftLeft, BitVec.getLsbD_setWidth, BitVec.getLsbD_extractLsb', hi]
  by_cases hlow : i < 8
  · simp [hlow, show i < 11 by omega]
  · simp [hlow, show i - 8 < 3 ↔ i < 11 by omega, show 8 + (i - 8) = i by omega, show i - 8 < 32 by omega]

theorem encode_codeRead_fields (x : Byte) (k : BitVec 3) :
    (encode (.codeRead x k)).extractLsb' 0 8 = x ∧ (encode (.codeRead x k)).extractLsb' 8 3 = k := by
  revert x k
  decide +kernel

theorem decode_encode_fifoClr (a b : Bool) : decode (encode (.fifoClr a b)) = .ok (.fifoClr a b) := by
  revert a b
  decide +kernel

/-- Format C's two operand bits (R78) are the word's low 2 bits. -/
theorem fifoClr_fields (w : Word) :
    (bitWord (w.getLsbD 1) <<< 1) ||| bitWord (w.getLsbD 0) = zext (w.extractLsb' 0 2) := by
  have hbit (c : Bool) (i : Nat) : (bitWord c).getLsbD i = (c && decide (i = 0)) := by
    cases c
    · simp [bitWord]
    · simp [bitWord, BitVec.getLsbD_one]
  refine BitVec.eq_of_getLsbD_eq fun i hi => ?_
  simp only [BitVec.getLsbD_or, BitVec.getLsbD_shiftLeft, BitVec.getLsbD_setWidth, BitVec.getLsbD_extractLsb', hi, hbit]
  match i with
  | 0 => simp
  | 1 => simp
  | i + 2 => simp

end

end Sys2Proof.Machine
end

section
/-! PROOFS. The statements about encoding a command and decoding its word (spec/30_encoding.md). -/

namespace Sys2Proof.Proofs

open Sys2Proof.Machine Sys2Proof.Laws

/-- Settles O1: an encoded command matches its row (R80), and its operands are read back from the low bits. -/
theorem decodeOfEncodeIsTheCommand : Obligations.DecodeOfEncodeIsTheCommand := by
  unfold Obligations.DecodeOfEncodeIsTheCommand
  intro i
  obtain ⟨-, -, -, -, -, hftLoad, hftGet, hftRead, -, -, hnodeRead, hcodeRead, -, -, -, hdecInit, -⟩ :=
    decodeFollowsTheOpcodeMap (encode i)
  cases i with
  | fifoClr a b => exact decode_encode_fifoClr a b
  | ftLoad x => exact (hftLoad x).mpr ⟨EncodeSpells.ftLoad x, (extractLsb'_or_operand (by decide) (by decide) x).symm⟩
  | ftGet k => exact (hftGet k).mpr ⟨EncodeSpells.ftGet k, (extractLsb'_or_operand (by decide) (by decide) k).symm⟩
  | ftRead x => exact (hftRead x).mpr ⟨EncodeSpells.ftRead x, (extractLsb'_or_operand (by decide) (by decide) x).symm⟩
  | nodeRead k =>
    exact (hnodeRead k).mpr
      ⟨EncodeSpells.nodeRead k, (extractLsb'_or_operand (by decide) (by decide) k).symm⟩
  | codeRead x k =>
    obtain ⟨hx, hk⟩ := encode_codeRead_fields x k
    exact (hcodeRead x k).mpr ⟨EncodeSpells.codeRead x k, hx.symm, hk.symm⟩
  | decInit p =>
    exact (hdecInit p).mpr
      ⟨EncodeSpells.decInit p, (extractLsb'_or_operand (by decide) (by decide) p).symm⟩
  | _ => decide +kernel

/-- Settles O2: the word is the fixed part of the row it spells with the operand read from its free bits. -/
theorem decodedWordIsItsEncoding : Obligations.DecodedWordIsItsEncoding := by
  unfold Obligations.DecodedWordIsItsEncoding
  intro w i h
  obtain ⟨r, hr, hspells, rfl⟩ := decode_eq_ok_iff.mp h
  rw [OpRow.spells_iff] at hspells
  rcases List.mem_append.mp hr with hfixed | hoperand
  · have hrow : ∀ r ∈ formatZRows, r.mask = BitVec.allOnes 32 ∧ encode (r.make w) = r.pattern := by
      simp [formatZRows, encode]
    obtain ⟨hmask, hencode⟩ := hrow r hfixed
    rw [hencode, ← hspells, hmask, BitVec.and_allOnes]
  · simp only [operandRows, List.mem_cons, List.not_mem_nil, or_false] at hoperand
    rcases hoperand with rfl | rfl | rfl | rfl | rfl | rfl | rfl
    · have hword : 0x02000000 ||| zext (w.extractLsb' 0 2) = w := or_operand_eq_of_spells hspells (by decide)
      rw [← fifoClr_fields, ← BitVec.or_assoc] at hword
      exact hword
    · exact or_operand_eq_of_spells hspells (by decide)
    · exact or_operand_eq_of_spells hspells (by decide)
    · exact or_operand_eq_of_spells hspells (by decide)
    · exact or_operand_eq_of_spells hspells (by decide)
    · have hword : 0x23000000 ||| zext (w.extractLsb' 0 11) = w := or_operand_eq_of_spells hspells (by decide)
      rw [← codeRead_fields, ← BitVec.or_assoc] at hword
      exact hword
    · exact or_operand_eq_of_spells hspells (by decide)

/-- Settles O6: each word is evaluated by the decoder. -/
theorem exampleWordsDecode : Obligations.ExampleWordsDecode := by
  unfold Obligations.ExampleWordsDecode
  decide +kernel

end Sys2Proof.Proofs
end

section
/-! SUPPORT. One event of a run (R11, R12): which one a step takes, what a write or a read does to the flags, and when
the engine's event changes something (R90, R95). -/

namespace Sys2Proof.Machine

/-! ### The event a step takes (R12, R13) -/

section
variable {s : State}

theorem step_of_nil (h : s.events = []) : step s = engineStep s := by
  simp [step, nextEvent, h, applyEvent]

theorem step_of_cons {e : Event} {rest : List Event} (h : s.events = e :: rest) :
    step s = applyEvent e { s with events := rest } := by
  simp [step, nextEvent, h]

theorem busWrite_resetWord (s : State) : busWrite 0x10 0x01000000 s = resetState s :=
  (busWrite_regOffset resetWord .cmd s).trans (writeCmd_resetWord s)

/-- The engine's step of a running command is its meaning (R91, R92). -/
theorem engineStep_eq_exec {i : Instr} (hi : i ≠ .reset) (hdec : decode s.cur = .ok i) (hbusy : s.busy = true)
    (hph : s.ph = .start ∨ s.ph = .run ∧ streaming i = true) : engineStep s = exec i s := by
  rcases hph with hph | ⟨hph, hstream⟩
  · cases i with
    | reset => exact absurd rfl hi
    | _ => simp [engineStep, hbusy, hph, startStep, hdec]
  · simp [engineStep, hbusy, hph, runStep, hdec, hstream]

theorem engineStep_of_idle (h : s.busy = false) : engineStep s = .next s := by
  simp [engineStep, h]

/-- A running streaming command that CUR spells moves by its own RUN step. -/
theorem engineStep_of_streaming {i : Instr} (hi : streaming i = true) (hcur : s.cur = encode i) (hbusy : s.busy = true)
    (hph : s.ph = .run) : engineStep s = exec i s := by
  refine engineStep_eq_exec (fun hr => ?_) ((decode_eq_ok_iff_of_streaming hi).mpr hcur) hbusy (.inr ⟨hph, hi⟩)
  rw [hr] at hi
  cases hi

end

/-! ### Offsets of one slot (R58) -/

theorem regAt_congr {a b : Word} (h : slotOf a = slotOf b) : regAt a = regAt b := by simp only [regAt, h]

/-! ### When an engine step changes something (R90, R95) -/

section
variable {i : Instr} {s t : State}

/-- A START step ends its command or begins its RUN phase (R91). -/
theorem exec_of_start (hi : i ≠ .reset) (hph : s.ph = .start) (h : exec i s = .next t) :
    t.busy = false ∨ t.ph = .run := by
  cases i with
  | reset => exact absurd rfl hi
  | nop | ftClear | ftRead | fifoClr =>
    injection h with h
    subst h
    exact .inl rfl
  | ftCount =>
    rcases execFtCount_cases h with ⟨-, rfl⟩ | ⟨hrun, -⟩
    · exact .inr rfl
    · simp [hph] at hrun
  | ftLoad sym => rcases execFtLoad_cases h with ⟨-, rfl⟩ | ⟨-, rfl⟩ <;> exact .inl rfl
  | ftGet k => rcases execFtGet_cases h with ⟨-, rfl⟩ | ⟨_, _, -, rfl⟩ <;> exact .inl rfl
  | treeBuild => rcases execTreeBuild_cases h with ⟨-, rfl⟩ | ⟨-, _, _, -, rfl⟩ <;> exact .inl rfl
  | codeGen => rcases execCodeGen_cases h with ⟨-, rfl⟩ | ⟨-, _, _, -, -, rfl⟩ <;> exact .inl rfl
  | nodeRead k => rcases execNodeRead_cases h with ⟨-, rfl⟩ | ⟨-, -, rfl⟩ | ⟨-, -, _, -, rfl⟩ <;> exact .inl rfl
  | codeRead sym w => rcases execCodeRead_cases h with ⟨-, rfl⟩ | ⟨-, rfl⟩ <;> exact .inl rfl
  | encInit => rcases execEncInit_cases h with ⟨-, rfl⟩ | ⟨-, rfl⟩ <;> exact .inl rfl
  | encData =>
    rcases execEncData_cases h with ⟨-, -, rfl⟩ | ⟨-, -, rfl⟩ | ⟨hrun, -⟩
    · exact .inl rfl
    · exact .inr rfl
    · simp [hph] at hrun
  | encFlush =>
    rcases execEncFlush_cases h with ⟨-, -, rfl⟩ | ⟨-, -, rfl⟩ | ⟨hrun, -⟩
    · exact .inl rfl
    · exact .inr rfl
    · simp [hph] at hrun
  | decInit padf =>
    rcases execDecInit_cases h with ⟨-, rfl⟩ | ⟨-, -, rfl⟩ | ⟨-, -, -, rfl⟩ | ⟨-, -, -, rfl⟩ <;> exact .inl rfl
  | decData =>
    rcases execDecData_cases h with ⟨-, -, rfl⟩ | ⟨-, -, -, rfl⟩ | ⟨-, -, -, rfl⟩ | ⟨hrun, -⟩
    · exact .inl rfl
    · exact .inl rfl
    · exact .inr rfl
    · simp [hph] at hrun
  | decFinish =>
    rcases execDecFinish_cases h with ⟨-, rfl⟩ | ⟨-, -, rfl⟩ | ⟨-, -, -, rfl⟩ | ⟨-, -, -, -, rfl⟩ <;> exact .inl rfl

/-- What a RUN step that is no stall changes: it ends the command, or takes a byte, or moves a bit. -/
theorem run_ne_self (hbusy : s.busy = true)
    (h : t.busy = false ∨ t.inq.length ≠ s.inq.length ∨ t.encAccN ≠ s.encAccN ∨ t.bitcnt ≠ s.bitcnt ∨
      t.decShN ≠ s.decShN) :
    t ≠ s := by
  rintro rfl
  simp [hbusy] at h

/-- A RUN step that answers the same state is a stall (R95, R105). -/
theorem stall_of_ftCountRun_self (hbusy : s.busy = true) (h : ftCountRun s = .next s) :
    ∃ x, runStall .ftCount s = some x := by
  rcases ftCountRun_cases h with ⟨-, ht⟩ | ⟨hcnt, hinq, -⟩ | ⟨b, rest, -, -, -, ht⟩ | ⟨b, rest, -, hinq, -, ht⟩
  · exact absurd ht.symm (run_ne_self hbusy (.inl rfl))
  · exact ⟨_, runStall_ftCount_iff.mpr ⟨rfl, hcnt, hinq⟩⟩
  · exact absurd ht.symm (run_ne_self hbusy (.inl rfl))
  · refine absurd ht.symm (run_ne_self hbusy (.inr (.inl ?_)))
    simp [hinq, ftSet]

/-- A RUN step that answers the same state is a stall (R95, R123). -/
theorem stall_of_encDataRun_self (hbusy : s.busy = true) (h : encDataRun s = .next s) :
    ∃ x, runStall .encData s = some x := by
  rcases encDataRun_cases h with ⟨hacc, hout, -⟩ | ⟨hacc, -, ht⟩ | ⟨-, -, ht⟩ | ⟨hacc, hsr, hcnt, hinq, -⟩ |
    ⟨b, rest, -, -, -, -, -, ht⟩ | ⟨b, rest, -, -, -, hinq, -, ht⟩ | ⟨-, -, -, ht⟩
  · exact ⟨_, runStall_encData_iff.mpr (.inl ⟨hacc, rfl, (outFull_iff s).mp hout⟩)⟩
  · refine absurd ht.symm (run_ne_self hbusy (.inr (.inr (.inl ?_))))
    simp [hacc, emitGroup, pushOut]
  · refine absurd ht.symm (run_ne_self hbusy (.inr (.inr (.inr (.inl ?_)))))
    simp [shiftBit]
  · exact ⟨_, runStall_encData_iff.mpr (.inr ⟨hacc, hsr, rfl, hcnt, hinq⟩)⟩
  · exact absurd ht.symm (run_ne_self hbusy (.inl rfl))
  · refine absurd ht.symm (run_ne_self hbusy (.inr (.inl ?_)))
    simp [hinq]
  · exact absurd ht.symm (run_ne_self hbusy (.inl rfl))

/-- A RUN step that answers the same state is a stall (R95, R124). -/
theorem stall_of_encFlushRun_self (hbusy : s.busy = true) (h : encFlushRun s = .next s) :
    ∃ x, runStall .encFlush s = some x := by
  rcases encFlushRun_cases h with ⟨hacc, hout, -⟩ | ⟨-, -, ht⟩ | ⟨-, ht⟩
  · exact ⟨_, runStall_encFlush_iff.mpr ⟨hacc, rfl, (outFull_iff s).mp hout⟩⟩
  · exact absurd ht.symm (run_ne_self hbusy (.inl rfl))
  · exact absurd ht.symm (run_ne_self hbusy (.inl rfl))

/-- A RUN step that answers the same state is a stall (R95, R129). -/
theorem stall_of_decDataRun_self (hbusy : s.busy = true) (h : decDataRun s = .next s) :
    ∃ x, runStall .decData s = some x := by
  have hbit : s.decShN - 1 ≠ s.decShN := by simp
  rcases decDataRun_cases h with ⟨-, -, ht⟩ | ⟨x, hsh, hmove, hout, -⟩ | ⟨x, -, -, -, ht⟩ | ⟨nxt, -, -, ht⟩ |
    ⟨hsh, hcnt, hinq, -⟩ | ⟨b, rest, -, -, hinq, ht⟩ | ⟨-, -, ht⟩
  · exact absurd ht.symm (run_ne_self hbusy (.inl rfl))
  · exact ⟨_, runStall_decData_iff.mpr (.inl ⟨hsh, ⟨x, hmove⟩, rfl, (outFull_iff s).mp hout⟩)⟩
  · exact absurd ht.symm (run_ne_self hbusy (.inr (.inr (.inr (.inr hbit)))))
  · exact absurd ht.symm (run_ne_self hbusy (.inr (.inr (.inr (.inr hbit)))))
  · exact ⟨_, runStall_decData_iff.mpr (.inr ⟨hsh, rfl, hcnt, hinq⟩)⟩
  · refine absurd ht.symm (run_ne_self hbusy (.inr (.inl ?_)))
    simp [hinq]
  · exact absurd ht.symm (run_ne_self hbusy (.inl rfl))

/-- A RUN step answers the same state exactly in a stall (R95). -/
theorem exec_run_self_iff (hi : streaming i = true) (hbusy : s.busy = true) (hph : s.ph = .run) :
    exec i s = .next s ↔ ∃ x, runStall i s = some x := by
  cases i with
  | ftCount =>
    refine (iff_of_eq (congrArg (· = .next s) (execFtCount_of_run hph))).trans
      ⟨stall_of_ftCountRun_self hbusy, fun ⟨x, hx⟩ => ?_⟩
    obtain ⟨-, hcnt, hinq⟩ := runStall_ftCount_iff.mp hx
    exact ftCountRun_of_nil hcnt hinq
  | encData =>
    refine (iff_of_eq (congrArg (· = .next s) (execEncData_of_run hph))).trans
      ⟨stall_of_encDataRun_self hbusy, fun ⟨x, hx⟩ => ?_⟩
    rcases runStall_encData_iff.mp hx with ⟨hacc, -, hout⟩ | ⟨hacc, hsr, -, hcnt, hinq⟩
    · exact encDataRun_of_outFull hacc hout
    · exact encDataRun_of_nil hacc hsr hcnt hinq
  | encFlush =>
    refine (iff_of_eq (congrArg (· = .next s) (execEncFlush_of_run hph))).trans
      ⟨stall_of_encFlushRun_self hbusy, fun ⟨x, hx⟩ => ?_⟩
    obtain ⟨hacc, -, hout⟩ := runStall_encFlush_iff.mp hx
    exact encFlushRun_of_outFull hacc hout
  | decData =>
    refine (iff_of_eq (congrArg (· = .next s) (execDecData_of_run hph))).trans
      ⟨stall_of_decDataRun_self hbusy, fun ⟨x, hx⟩ => ?_⟩
    rcases runStall_decData_iff.mp hx with ⟨hsh, ⟨sym, hmove⟩, -, hout⟩ | ⟨hsh, -, hcnt, hinq⟩
    · exact decDataRun_of_outFull hsh hmove hout
    · exact decDataRun_of_nil hsh hcnt hinq
  | _ => cases hi

/-- A disabled engine step answers the same state (R90). -/
theorem engineStep_self_of_disabled (h : ¬ (s.busy = true ∧ (s.ph = .start ∨ (s.ph = .run ∧ stallOf s = none)))) :
    engineStep s = .next s := by
  cases hbusy : s.busy with
  | false => exact engineStep_of_idle hbusy
  | true =>
    cases hph : s.ph with
    | start => simp [hbusy, hph] at h
    | run =>
      simp only [hbusy, hph, reduceCtorEq, true_and, false_or] at h
      obtain ⟨x, hx⟩ := Option.ne_none_iff_exists'.mp h
      obtain ⟨-, -, i, hi, hcur, hstall⟩ := stallOf_eq_some_iff.mp hx
      rw [engineStep_of_streaming hi hcur hbusy hph]
      exact (exec_run_self_iff hi hbusy hph).mpr ⟨x, hstall⟩

/-- An enabled engine step changes the state (R90). -/
theorem disabled_of_engineStep_self (h : engineStep s = .next s) :
    ¬ (s.busy = true ∧ (s.ph = .start ∨ (s.ph = .run ∧ stallOf s = none))) := by
  rintro ⟨hbusy, henabled⟩
  rcases engineStep_cases h with ⟨hidle, -⟩ | ⟨-, -, -, ht⟩ | ⟨i, -, hph, hdec, hi, hexec⟩ |
    ⟨i, -, hph, hdec, hi, hexec⟩
  · simp [hbusy] at hidle
  · exact absurd ht.symm (run_ne_self hbusy (.inl rfl))
  · rcases exec_of_start hi hph hexec with hend | hrun
    · simp [hbusy] at hend
    · simp [hph] at hrun
  · obtain ⟨x, hx⟩ := (exec_run_self_iff hi hbusy hph).mp hexec
    have hcur := (decode_eq_ok_iff_of_streaming hi).mp hdec
    have hstall := stallOf_eq_some_iff.mpr ⟨hbusy, hph, i, hi, hcur, hx⟩
    simp [hph, hstall] at henabled

end

/-! ### IRQ (R154) -/

section
variable {s t : State}

/-- An engine step that ends a command sets DONE or ERR (R93, R94). -/
theorem engineStep_end_sets_flag (h : engineStep s = .next t) (hbusy : s.busy = true) (hend : t.busy = false) :
    t.done = true ∨ t.err = true := by
  rcases engineStep_ending h with ⟨hidle, -⟩ | ⟨-, rfl⟩ | ⟨i, -, -, hending⟩
  · simp [hbusy] at hidle
  · exact .inr rfl
  · cases hending with
    | raises c info => exact .inr rfl
    | completes data _ => exact .inl rfl
    | continues data _ => simp [data.busy, hbusy] at hend

/-- An engine step clears neither DONE nor ERR. -/
theorem engineStep_keeps_flags (h : engineStep s = .next t) :
    (s.done = true → t.done = true) ∧ (s.err = true → t.err = true) := by
  rcases engineStep_ending h with ⟨-, rfl⟩ | ⟨-, rfl⟩ | ⟨i, -, -, hending⟩
  · exact ⟨id, id⟩
  · exact ⟨id, fun _ => rfl⟩
  · cases hending with
    | raises c info => exact ⟨id, fun _ => rfl⟩
    | completes data _ => exact ⟨fun _ => rfl, data.err.trans⟩
    | continues data _ => exact ⟨data.done.trans, data.err.trans⟩

theorem irq_iff : irq s = true ↔ s.done = true ∧ s.doneIe = true ∨ s.err = true ∧ s.errIe = true := by
  simp [irq]

theorem irq_of_engineStep (h : engineStep s = .next t) (hirq : irq s = true) : irq t = true := by
  obtain ⟨hdone, herr⟩ := engineStep_keeps_flags h
  have hframe := engineStep_frame h
  rw [irq_iff] at hirq ⊢
  exact hirq.imp (fun ⟨hd, hie⟩ => ⟨hdone hd, hframe.doneIe.trans hie⟩) fun ⟨he, hie⟩ =>
    ⟨herr he, hframe.errIe.trans hie⟩

/-- A read changes no flag, no enable and no command. -/
theorem busReadState_flags (off : Word) (s : State) :
    (busReadState off s).done = s.done ∧ (busReadState off s).err = s.err ∧ (busReadState off s).errCode = s.errCode ∧
    (busReadState off s).errInfo = s.errInfo ∧ (busReadState off s).busy = s.busy ∧ (busReadState off s).cur = s.cur ∧
    irq (busReadState off s) = irq s := by
  rcases busReadState_cases off s with h | ⟨-, h⟩ <;> rw [h] <;> exact ⟨rfl, rfl, rfl, rfl, rfl, rfl, rfl⟩

theorem writeDataIn_irq (v : Word) (s : State) : irq (writeDataIn v s) = irq s := by
  cases hfull : inFull s
  · rw [writeDataIn_of_not_full v s hfull]; rfl
  · rw [writeDataIn_of_full v s hfull]; rfl

theorem irq_resetState (s : State) : irq (resetState s) = false := rfl

/-- A CMD write with neither a command running nor an error pending resets or starts a command: IRQ is low. -/
theorem irq_writeCmd_of_idle (v : Word) (hbusy : s.busy = false) (herr : s.err = false) :
    irq (writeCmd v s) = false := by
  rcases writeCmd_cases v s with ⟨-, h⟩ | ⟨-, hb | he, -⟩ | ⟨-, -, -, h⟩
  · rw [h]
    exact irq_resetState s
  · simp [hbusy] at hb
  · simp [herr] at he
  · rw [h]
    simp [irq, acceptCommand, herr]

end

end Sys2Proof.Machine
end

section
/-! PROOFS. The statements about single steps: a step as an event, the engine's enabling, a pending error and IRQ
(spec/40_engine_control.md, spec/60_exceptions.md), and two about the register window (spec/20_memory.md). -/

namespace Sys2Proof.Proofs

open Sys2Proof.Machine

/-- Settles O7: the event list chooses the event, and the engine's event is the meaning of the command in CUR. -/
theorem stepRunsTheDecodedCommand : Obligations.StepRunsTheDecodedCommand := by
  unfold Obligations.StepRunsTheDecodedCommand
  intro s i rest
  refine ⟨fun h => ?_, fun hi hdec hbusy hph => ⟨fun h => ?_, fun h => ?_⟩, step_of_nil, step_of_cons, step_of_cons,
    fun off v => step_of_cons, fun off => step_of_cons⟩
  · rw [step_of_cons h]
    exact congrArg Host.Outcome.next (busWrite_resetWord _)
  · rw [step_of_nil h]
    exact engineStep_eq_exec hi hdec hbusy hph
  · rw [step_of_cons h]
    exact engineStep_eq_exec (s := { s with events := rest }) hi hdec hbusy hph

/-- Settles O8: a RUN step answers the same state exactly in a stall, and a START step never does. -/
theorem engineMovesExactlyWhenEnabled : Obligations.EngineMovesExactlyWhenEnabled := by
  unfold Obligations.EngineMovesExactlyWhenEnabled
  exact fun s => ⟨disabled_of_engineStep_self, engineStep_self_of_disabled⟩

/-- Settles O12: of the events left only a CMD write touches the command, and with ERR = 1 it sets REJ. -/
theorem pendingErrorHoldsUntilAcknowledged : Obligations.PendingErrorHoldsUntilAcknowledged := by
  unfold Obligations.PendingErrorHoldsUntilAcknowledged
  intro s t e herr hbusy hreset hcmd hstatus h
  cases e with
  | hwReset => exact absurd rfl hreset
  | engine =>
    rw [applyEvent, engineStep_of_idle hbusy] at h
    injection h with h
    subst h
    exact ⟨herr, rfl, rfl, hbusy, rfl⟩
  | busRead off =>
    injection h with h
    subst h
    obtain ⟨-, hErr, hCode, hInfo, hBusy, hCur, -⟩ := busReadState_flags off s
    exact ⟨hErr.trans herr, hCode, hInfo, hBusy.trans hbusy, hCur⟩
  | busWrite off v =>
    injection h with h
    subst h
    rcases busWrite_cases off v s with h | ⟨-, h⟩ | ⟨hslot, h⟩ | ⟨hslot, h⟩ | ⟨-, h⟩ | ⟨-, h⟩ <;> rw [h]
    · exact ⟨herr, rfl, rfl, hbusy, rfl⟩
    · exact ⟨herr, rfl, rfl, hbusy, rfl⟩
    · rw [writeStatus_eq, hstatus off v rfl hslot]
      exact ⟨herr, rfl, rfl, hbusy, rfl⟩
    · rcases writeCmd_cases v s with ⟨hv, -⟩ | ⟨-, -, h⟩ | ⟨-, -, hidle, -⟩
      · exact absurd hv (hcmd off v rfl hslot)
      · rw [h]
        exact ⟨herr, rfl, rfl, hbusy, rfl⟩
      · simp [herr] at hidle
    · exact ⟨herr, rfl, rfl, hbusy, rfl⟩
    · cases hfull : inFull s
      · rw [writeDataIn_of_not_full v s hfull]
        exact ⟨herr, rfl, rfl, hbusy, rfl⟩
      · rw [writeDataIn_of_full v s hfull]
        exact ⟨herr, rfl, rfl, hbusy, rfl⟩

/-- Settles O14: an ending step sets DONE or ERR, the engine clears neither, and a write outside the three slots
leaves the flags and the enables. -/
theorem irqIsRaisedByTheEndingStepAndDroppedByItsCauses :
    Obligations.IrqIsRaisedByTheEndingStepAndDroppedByItsCauses := by
  unfold Obligations.IrqIsRaisedByTheEndingStepAndDroppedByItsCauses
  refine ⟨fun s => rfl, fun s t h hbusy hend => ?_, fun s v h1 h2 => ?_, fun s => ?_, fun s v hbusy herr => ?_,
    irq_resetState, fun s t e h hirq hlow => ?_⟩
  · have hframe := engineStep_frame h
    refine ⟨engineStep_end_sets_flag h hbusy hend, fun hd hie => ?_, fun he hie => ?_⟩
    · exact irq_iff.mpr (.inl ⟨hd, hframe.doneIe.trans hie⟩)
    · exact irq_iff.mpr (.inr ⟨he, hframe.errIe.trans hie⟩)
  · have hwrite : busWrite 0x0C v s = writeStatus v s := busWrite_regOffset v .status s
    rw [hwrite, writeStatus_eq]
    simp [irq, h1, h2]
  · have hwrite : busWrite 0x08 0 s = { s with doneIe := false, errIe := false } := busWrite_regOffset 0 .ctrl s
    rw [hwrite]
    simp [irq]
  · have hwrite : busWrite 0x10 v s = writeCmd v s := busWrite_regOffset v .cmd s
    rw [hwrite]
    exact irq_writeCmd_of_idle v hbusy herr
  · cases e with
    | hwReset => exact .inl rfl
    | engine => simp [irq_of_engineStep h hirq] at hlow
    | busRead off =>
      injection h with h
      subst h
      obtain ⟨-, -, -, -, -, -, hsame⟩ := busReadState_flags off s
      exact absurd (hirq.symm.trans (hsame.symm.trans hlow)) nofun
    | busWrite off v =>
      injection h with h
      subst h
      have hne : irq (busWrite off v s) ≠ irq s := by simp [hirq, hlow]
      have hmem {k : BitVec 6} (hslot : slotOf off = k) (hk : k.toNat ∈ [0x02, 0x03, 0x04]) :
          (off.extractLsb' 2 6).toNat ∈ [0x02, 0x03, 0x04] := by
        rw [← hslot] at hk
        exact hk
      refine .inr ⟨off, v, rfl, ?_⟩
      rcases busWrite_cases off v s with h | ⟨hslot, -⟩ | ⟨hslot, -⟩ | ⟨hslot, -⟩ | ⟨-, h⟩ | ⟨-, h⟩
      · exact absurd (congrArg irq h) hne
      · exact hmem hslot (by decide)
      · exact hmem hslot (by decide)
      · exact hmem hslot (by decide)
      · exact absurd (congrArg irq h) hne
      · exact absurd ((congrArg irq h).trans (writeDataIn_irq v s)) hne

/-- Settles O15: the three accesses look at the register of the slot only. -/
theorem onlyTheSlotBitsOfAnOffsetMatter : Obligations.OnlyTheSlotBitsOfAnOffsetMatter := by
  unfold Obligations.OnlyTheSlotBitsOfAnOffsetMatter
  intro a b v s h
  have hreg := regAt_congr h
  simp only [busReadValue, busReadState, busWrite, hreg, and_self]

/-- Settles O17, by the two cases of a read. -/
theorem onlyTheDataOutReadHasAnEffect : Obligations.OnlyTheDataOutReadHasAnEffect := by
  unfold Obligations.OnlyTheDataOutReadHasAnEffect
  intro off s h
  rcases busReadState_cases off s with hsame | ⟨hslot, -⟩
  · exact hsame
  · exact absurd hslot h

end Sys2Proof.Proofs
end

section
/-! SUPPORT. The control invariant (R55): what a host access and a reset keep, and what each engine step keeps. The
flags follow from the three ways a step leaves its command; the data path is a matter of each command. -/

namespace Sys2Proof.Machine

/-! ### The parts of the control invariant -/

/-- No full group and no code bit waits: what holds outside ENC_DATA's RUN phase. -/
abbrev NoGroup (s : State) : Prop := ¬ (s.encAccN = 8 ∨ s.encSrN ≠ 0)

/-- What the control invariant asks of the data path while no RUN phase is open. -/
structure PathInv (s : State) : Prop where
  inBound : s.inq.length ≤ s.cfg.inDepth.toNat
  outBound : s.outq.length ≤ s.cfg.outDepth.toNat
  codesNeedTree : s.codesValid = true → s.treeValid = true
  encNeedsCodes : s.mode = .enc → s.codesValid = true
  decNeedsTree : s.mode = .dec → s.treeValid = true
  groupCount : s.mode = .enc → s.bitcnt.toNat % 8 = s.encAccN.val % 8
  noGroup : NoGroup s

/-- What the control invariant asks besides the flags BUSY, DONE, ERR and the error record. -/
structure DataInv (s : State) : Prop where
  inBound : s.inq.length ≤ s.cfg.inDepth.toNat
  outBound : s.outq.length ≤ s.cfg.outDepth.toNat
  codesNeedTree : s.codesValid = true → s.treeValid = true
  encNeedsCodes : s.mode = .enc → s.codesValid = true
  decNeedsTree : s.mode = .dec → s.treeValid = true
  groupCount : s.mode = .enc → s.bitcnt.toNat % 8 = s.encAccN.val % 8
  groupInEncData : s.encAccN = 8 ∨ s.encSrN ≠ 0 → s.busy = true ∧ s.ph = .run ∧ decode s.cur = .ok .encData
  runPhase : s.ph = .run → RunPhaseOk s

section
variable {i : Instr} {s t : State}

theorem ControlInv.dataInv (hs : ControlInv s) : DataInv s := { hs with }

theorem ControlInv.noGroup (hs : ControlInv s) (h : s.ph = .start ∨ decode s.cur ≠ .ok .encData) : NoGroup s := by
  intro hgroup
  obtain ⟨-, hph, hdec⟩ := hs.groupInEncData hgroup
  rcases h with hstart | hne
  · simp [hph] at hstart
  · exact hne hdec

theorem ControlInv.pathInv (hs : ControlInv s) (h : s.ph = .start ∨ decode s.cur ≠ .ok .encData) : PathInv s :=
  { hs with noGroup := hs.noGroup h }

/-- Outside a RUN phase the data path alone decides. -/
theorem PathInv.dataInv (hp : PathInv s) (hph : s.ph = .start) : DataInv s :=
  { hp with
    groupInEncData := fun h => absurd h hp.noGroup
    runPhase := fun h => absurd (hph.symm.trans h) nofun }

theorem PathInv.raiseError (hp : PathInv s) (c : ErrCode) (info : Word) : DataInv (raiseError c info s) :=
  PathInv.dataInv { hp with } rfl

theorem PathInv.complete (hp : PathInv s) : DataInv (complete s) := PathInv.dataInv { hp with } rfl

/-- While a command runs no flag is set (R55). -/
theorem ControlInv.flags_of_busy (hs : ControlInv s) (hbusy : s.busy = true) : s.done = false ∧ s.err = false := by
  refine ⟨Bool.eq_false_iff.mpr fun hd => ?_, Bool.eq_false_iff.mpr fun he => ?_⟩
  · obtain ⟨hidle, -⟩ := hs.doneIdle hd
    simp [hbusy] at hidle
  · have hidle := hs.errIdle he
    simp [hbusy] at hidle

theorem controlInv_raiseError (hs : ControlInv s) (hbusy : s.busy = true) {c : ErrCode} {info : Word}
    (hdata : DataInv (raiseError c info s)) : ControlInv (raiseError c info s) := by
  obtain ⟨hdone, -⟩ := hs.flags_of_busy hbusy
  exact { hdata with
    cfgValid := hs.cfgValid
    errIdle := fun _ => rfl
    doneIdle := fun h => absurd (hdone.symm.trans h) nofun
    noErrRecord := nofun
    errCodeNamed := fun _ => errCodeBits_mem_range c
    runBusy := nofun }

/-- However an engine step leaves its command, the flags and the error record are right. -/
theorem controlInv_of_ending (hs : ControlInv s) (hbusy : s.busy = true) (hend : StepEnding i s t)
    (hdata : DataInv t) : ControlInv t := by
  obtain ⟨hdone, herr⟩ := hs.flags_of_busy hbusy
  obtain ⟨hcode, hinfo⟩ := hs.noErrRecord herr
  cases hend with
  | raises c info => exact controlInv_raiseError hs hbusy hdata
  | completes data _ =>
    have herr := data.err.trans herr
    exact { hdata with
      cfgValid := by simpa only [complete_cfg, data.cfg] using hs.cfgValid
      errIdle := fun _ => rfl
      doneIdle := fun _ => ⟨rfl, herr⟩
      noErrRecord := fun _ => ⟨data.errCode.trans hcode, data.errInfo.trans hinfo⟩
      errCodeNamed := fun h => absurd (herr.symm.trans h) nofun
      runBusy := nofun }
  | continues data _ =>
    have hdone := data.done.trans hdone
    have herr := data.err.trans herr
    exact { hdata with
      cfgValid := by simpa only [data.cfg] using hs.cfgValid
      errIdle := fun h => absurd (herr.symm.trans h) nofun
      doneIdle := fun h => absurd (hdone.symm.trans h) nofun
      noErrRecord := fun _ => ⟨data.errCode.trans hcode, data.errInfo.trans hinfo⟩
      errCodeNamed := fun h => absurd (herr.symm.trans h) nofun
      runBusy := fun _ => data.busy.trans hbusy }

/-! ### What the RUN phase of each streaming command knows -/

theorem ControlInv.ftCount_treeValid (hs : ControlInv s) (hph : s.ph = .run) (hdec : decode s.cur = .ok .ftCount) :
    s.treeValid = false := by
  simpa only [RunPhaseOk, hdec] using hs.runPhase hph

theorem ControlInv.encData_mode (hs : ControlInv s) (hph : s.ph = .run) (hdec : decode s.cur = .ok .encData) :
    s.mode = .enc := by
  simpa only [RunPhaseOk, hdec] using hs.runPhase hph

theorem ControlInv.encFlush_mode (hs : ControlInv s) (hph : s.ph = .run) (hdec : decode s.cur = .ok .encFlush) :
    s.mode = .enc := by
  simpa only [RunPhaseOk, hdec] using hs.runPhase hph

theorem ControlInv.decData_mode (hs : ControlInv s) (hph : s.ph = .run) (hdec : decode s.cur = .ok .decData) :
    s.mode = .dec ∧ s.cnt.toNat ≤ s.decRem.toNat := by
  simpa only [RunPhaseOk, hdec] using hs.runPhase hph

/-- With no valid tree there are no codes and no open stream (R55). -/
theorem PathInv.invalid_of_no_tree (hp : PathInv s) (hv : s.treeValid = false) :
    s.codesValid = false ∧ s.mode ≠ .enc ∧ s.mode ≠ .dec := by
  have hcodes : s.codesValid ≠ true := fun hc => absurd (hv.symm.trans (hp.codesNeedTree hc)) nofun
  exact ⟨Bool.eq_false_iff.mpr hcodes, fun he => hcodes (hp.encNeedsCodes he),
    fun hd => absurd (hv.symm.trans (hp.decNeedsTree hd)) nofun⟩

/-! ### The data path after a command of one step -/

/-- A command without a RUN phase, from a state with no open RUN phase. -/
theorem exec_dataInv_of_not_streaming (hi : streaming i = false) (hne : i ≠ .reset) (hp : PathInv s)
    (h : exec i s = .next t) : DataInv t := by
  cases i with
  | reset => exact absurd rfl hne
  | ftCount | encData | encFlush | decData => cases hi
  | nop =>
    injection h with h
    subst h
    exact hp.complete
  | fifoClr a b =>
    injection h with h
    subst h
    refine PathInv.complete { hp with inBound := ?_, outBound := ?_ }
    · cases a
      · exact hp.inBound
      · exact Nat.zero_le _
    · cases b
      · exact hp.outBound
      · exact Nat.zero_le _
  | ftClear =>
    injection h with h
    subst h
    exact PathInv.complete { hp with
      codesNeedTree := nofun, encNeedsCodes := nofun, decNeedsTree := nofun, groupCount := nofun }
  | ftLoad x =>
    rcases execFtLoad_cases h with ⟨-, rfl⟩ | ⟨-, rfl⟩
    · exact hp.raiseError ..
    · exact PathInv.complete { hp with
        codesNeedTree := nofun, encNeedsCodes := nofun, decNeedsTree := nofun, groupCount := nofun }
  | ftGet k =>
    rcases execFtGet_cases h with ⟨-, rfl⟩ | ⟨sym, count, -, rfl⟩
    · exact hp.raiseError ..
    · exact PathInv.complete { hp with }
  | ftRead x =>
    injection h with h
    subst h
    exact PathInv.complete { hp with }
  | treeBuild =>
    rcases execTreeBuild_cases h with ⟨-, rfl⟩ | ⟨-, nodes, root, -, rfl⟩
    · exact hp.raiseError ..
    · exact PathInv.complete { hp with
        codesNeedTree := nofun, encNeedsCodes := nofun, decNeedsTree := nofun, groupCount := nofun }
  | codeGen =>
    rcases execCodeGen_cases h with ⟨-, rfl⟩ | ⟨hv, r, ps, -, -, rfl⟩
    · exact hp.raiseError ..
    · exact PathInv.complete { hp with
        codesNeedTree := fun _ => hv, encNeedsCodes := nofun, decNeedsTree := nofun, groupCount := nofun }
  | nodeRead k =>
    rcases execNodeRead_cases h with ⟨-, rfl⟩ | ⟨-, -, rfl⟩ | ⟨-, -, e, -, rfl⟩
    · exact hp.raiseError ..
    · exact hp.raiseError ..
    · exact PathInv.complete { hp with }
  | codeRead x w =>
    rcases execCodeRead_cases h with ⟨-, rfl⟩ | ⟨-, rfl⟩
    · exact hp.raiseError ..
    · exact PathInv.complete { hp with }
  | encInit =>
    rcases execEncInit_cases h with ⟨-, rfl⟩ | ⟨hc, rfl⟩
    · exact hp.raiseError ..
    · exact PathInv.complete { hp with
        encNeedsCodes := fun _ => hc, decNeedsTree := nofun, groupCount := fun _ => rfl, noGroup := by simp }
  | decInit padf =>
    rcases execDecInit_cases h with ⟨-, rfl⟩ | ⟨-, -, rfl⟩ | ⟨-, -, -, rfl⟩ | ⟨hv, -, -, rfl⟩
    · exact hp.raiseError ..
    · exact hp.raiseError ..
    · exact hp.raiseError ..
    · exact PathInv.complete { hp with encNeedsCodes := nofun, decNeedsTree := fun _ => hv, groupCount := nofun }
  | decFinish =>
    rcases execDecFinish_cases h with ⟨-, rfl⟩ | ⟨-, -, rfl⟩ | ⟨-, -, -, rfl⟩ | ⟨-, -, -, -, rfl⟩
    · exact hp.raiseError ..
    · exact hp.raiseError ..
    · exact hp.raiseError ..
    · exact PathInv.complete { hp with encNeedsCodes := nofun, decNeedsTree := nofun, groupCount := nofun }

/-! ### The data path after a step of a streaming command -/

/-- A byte pushed to an OUT that is not full fits (R18). -/
theorem length_pushOut_le {b : Byte} (hbound : s.outq.length ≤ s.cfg.outDepth.toNat) (hout : outFull s = false) :
    (s.outq ++ [b]).length ≤ s.cfg.outDepth.toNat := by
  have hne : s.outq.length ≠ s.cfg.outDepth.toNat := mt (outFull_iff s).mpr (by simp [hout])
  rw [List.length_append, List.length_singleton]
  omega

/-- A state whose RUN phase belongs to a command other than ENC_DATA. -/
theorem PathInv.dataInv_of_run (hp : PathInv s) (hrun : RunPhaseOk s) : DataInv s :=
  { hp with
    groupInEncData := fun h => absurd h hp.noGroup
    runPhase := fun _ => hrun }

theorem execFtCount_dataInv (hs : ControlInv s) (hdec : decode s.cur = .ok .ftCount) (h : execFtCount s = .next t) :
    DataInv t := by
  have hp : PathInv s := hs.pathInv (.inr (by simp [hdec]))
  rcases execFtCount_cases h with ⟨-, rfl⟩ | ⟨hph, h⟩
  · exact PathInv.dataInv_of_run { hp with
      codesNeedTree := nofun, encNeedsCodes := nofun, decNeedsTree := nofun, groupCount := nofun }
      (runPhaseOk_ftCount hdec rfl)
  · rcases ftCountRun_cases h with ⟨-, rfl⟩ | ⟨-, -, rfl⟩ | ⟨b, rest, -, -, -, rfl⟩ | ⟨b, rest, -, hinq, -, rfl⟩
    · exact hp.complete
    · exact hs.dataInv
    · exact hp.raiseError ..
    · have hlen : rest.length ≤ s.inq.length := by simp [hinq]
      exact PathInv.dataInv_of_run { hp with inBound := hlen.trans hp.inBound }
        (runPhaseOk_ftCount hdec (hs.ftCount_treeValid hph hdec))

theorem execEncFlush_dataInv (hs : ControlInv s) (hdec : decode s.cur = .ok .encFlush) (h : execEncFlush s = .next t) :
    DataInv t := by
  have hp : PathInv s := hs.pathInv (.inr (by simp [hdec]))
  obtain ⟨hacc, hsr⟩ := not_or.mp hp.noGroup
  rcases execEncFlush_cases h with ⟨-, -, rfl⟩ | ⟨-, hm, rfl⟩ | ⟨-, h⟩
  · exact hp.raiseError ..
  · exact PathInv.dataInv_of_run { hp with } (runPhaseOk_encFlush hdec hm)
  · rcases encFlushRun_cases h with ⟨-, -, rfl⟩ | ⟨-, hout, rfl⟩ | ⟨-, rfl⟩
    · exact hs.dataInv
    · exact PathInv.complete { hp with
        outBound := length_pushOut_le hs.outBound hout
        encNeedsCodes := nofun, decNeedsTree := nofun, groupCount := nofun, noGroup := not_or.mpr ⟨nofun, hsr⟩ }
    · exact PathInv.complete { hp with
        encNeedsCodes := nofun, decNeedsTree := nofun, groupCount := nofun, noGroup := not_or.mpr ⟨nofun, hsr⟩ }

theorem execDecData_dataInv (hs : ControlInv s) (hdec : decode s.cur = .ok .decData) (h : execDecData s = .next t) :
    DataInv t := by
  have hp : PathInv s := hs.pathInv (.inr (by simp [hdec]))
  rcases execDecData_cases h with ⟨-, -, rfl⟩ | ⟨-, -, -, rfl⟩ | ⟨-, hm, hrem, rfl⟩ | ⟨hph, h⟩
  · exact hp.raiseError ..
  · exact hp.raiseError ..
  · have hle : s.carg.toNat ≤ s.decRem.toNat := by simpa [BitVec.ult] using hrem
    exact PathInv.dataInv_of_run { hp with } (runPhaseOk_decData hdec hm hle)
  · obtain ⟨hm, hle⟩ := hs.decData_mode hph hdec
    rcases decDataRun_cases h with ⟨-, -, rfl⟩ | ⟨x, -, -, -, rfl⟩ | ⟨x, -, -, hout, rfl⟩ | ⟨nxt, -, -, rfl⟩ |
      ⟨-, -, -, rfl⟩ | ⟨b, rest, -, hcnt, hinq, rfl⟩ | ⟨-, -, rfl⟩
    · exact hp.raiseError ..
    · exact hs.dataInv
    · exact PathInv.dataInv_of_run { hp with outBound := length_pushOut_le hs.outBound hout }
        (runPhaseOk_decData hdec hm hle)
    · exact PathInv.dataInv_of_run { hp with } (runPhaseOk_decData hdec hm hle)
    · exact hs.dataInv
    · have hlen : rest.length ≤ s.inq.length := by simp [hinq]
      have hle' : (s.cnt - 1).toNat ≤ (s.decRem - 1).toNat := by bv_omega
      exact PathInv.dataInv_of_run { hp with inBound := hlen.trans hp.inBound } (runPhaseOk_decData hdec hm hle')
    · exact hp.complete

/-- ENC_DATA keeps the packer's bit count in step with BITCNT; a group or a code bit stays in its RUN phase. -/
theorem execEncData_dataInv (hs : ControlInv s) (hbusy : s.busy = true) (hdec : decode s.cur = .ok .encData)
    (h : execEncData s = .next t) : DataInv t := by
  rcases execEncData_cases h with ⟨hph, -, rfl⟩ | ⟨hph, hm, rfl⟩ | ⟨hph, h⟩
  · exact (hs.pathInv (.inl hph)).raiseError ..
  · exact PathInv.dataInv_of_run { hs.pathInv (.inl hph) with } (runPhaseOk_encData hdec hm)
  · have hm := hs.encData_mode hph hdec
    have hcount := hs.groupCount hm
    have hd := hs.dataInv
    rcases encDataRun_cases h with ⟨-, -, rfl⟩ | ⟨hacc, hout, rfl⟩ | ⟨hacc, -, rfl⟩ | ⟨-, -, -, -, rfl⟩ |
      ⟨b, rest, hacc, hsr, -, -, -, rfl⟩ | ⟨b, rest, hacc, hsr, -, hinq, -, rfl⟩ | ⟨hacc, hsr, -, rfl⟩
    · exact hd
    · refine { hd with
        outBound := length_pushOut_le hs.outBound hout, groupCount := fun _ => ?_
        groupInEncData := fun _ => ⟨hbusy, hph, hdec⟩, runPhase := fun _ => runPhaseOk_encData hdec hm }
      rw [hacc] at hcount
      exact hcount.trans (by decide : (8 : Fin 9).val % 8 = (0 : Fin 9).val % 8)
    · refine { hd with
        groupCount := fun _ => ?_
        groupInEncData := fun _ => ⟨hbusy, hph, hdec⟩, runPhase := fun _ => runPhaseOk_encData hdec hm }
      rw [shiftBit_encAccN hacc]
      simp only [shiftBit]
      bv_omega
    · exact hd
    · exact PathInv.raiseError { hd with noGroup := not_or.mpr ⟨hacc, not_not_intro hsr⟩ } ..
    · have hlen : rest.length ≤ s.inq.length := by simp [hinq]
      exact { hd with
        inBound := hlen.trans hd.inBound
        groupInEncData := fun _ => ⟨hbusy, hph, hdec⟩, runPhase := fun _ => runPhaseOk_encData hdec hm }
    · exact PathInv.complete { hd with noGroup := not_or.mpr ⟨hacc, not_not_intro hsr⟩ }

/-! ### The control invariant after any event -/

theorem exec_dataInv (hs : ControlInv s) (hbusy : s.busy = true) (hdec : decode s.cur = .ok i) (hne : i ≠ .reset)
    (hph : s.ph = .start ∨ streaming i = true) (h : exec i s = .next t) : DataInv t := by
  cases hi : streaming i with
  | false =>
    have hstart := hph.resolve_right (Bool.eq_false_iff.mp hi)
    exact exec_dataInv_of_not_streaming hi hne (hs.pathInv (.inl hstart)) h
  | true =>
    cases i with
    | ftCount => exact execFtCount_dataInv hs hdec h
    | encData => exact execEncData_dataInv hs hbusy hdec h
    | encFlush => exact execEncFlush_dataInv hs hdec h
    | decData => exact execDecData_dataInv hs hdec h
    | _ => cases hi

theorem ne_reset_of_streaming (hi : streaming i = true) : i ≠ .reset := by
  rintro rfl
  cases hi

theorem controlInv_engineStep (hs : ControlInv s) (h : engineStep s = .next t) : ControlInv t := by
  rcases engineStep_cases h with ⟨-, rfl⟩ | ⟨hbusy, hph, -, rfl⟩ | ⟨i, hbusy, hph, hdec, hne, h⟩ |
    ⟨i, hbusy, hph, hdec, hi, h⟩
  · exact hs
  · exact controlInv_raiseError hs hbusy ((hs.pathInv (.inl hph)).raiseError ..)
  · exact controlInv_of_ending hs hbusy (exec_ending hne h) (exec_dataInv hs hbusy hdec hne (.inl hph) h)
  · have hne := ne_reset_of_streaming hi
    exact controlInv_of_ending hs hbusy (exec_ending hne h) (exec_dataInv hs hbusy hdec hne (.inr hi) h)

theorem controlInv_resetState (h : s.cfg.Valid) : ControlInv (resetState s) where
  cfgValid := h
  inBound := Nat.zero_le _
  outBound := Nat.zero_le _
  errIdle := nofun
  doneIdle := nofun
  noErrRecord := fun _ => ⟨rfl, rfl⟩
  errCodeNamed := nofun
  codesNeedTree := nofun
  encNeedsCodes := nofun
  decNeedsTree := nofun
  groupInEncData := fun h => absurd h (by decide : ¬ (State.reset.encAccN = 8 ∨ State.reset.encSrN ≠ 0))
  runBusy := nofun
  runPhase := nofun
  groupCount := nofun

/-- An accepted command starts with every flag low (R88). -/
theorem controlInv_acceptCommand (hs : ControlInv s) (v : Word) (hbusy : s.busy = false) (herr : s.err = false) :
    ControlInv (acceptCommand v s) := by
  have hgroup : NoGroup s := fun h => absurd (hbusy.symm.trans (hs.groupInEncData h).1) nofun
  exact { hs with
    errIdle := fun h => absurd (herr.symm.trans h) nofun
    doneIdle := nofun
    groupInEncData := fun h => absurd h hgroup
    runBusy := nofun
    runPhase := nofun }

/-- A STATUS write clears flags, the error together with its record (R30, R152). -/
theorem controlInv_writeStatus (hs : ControlInv s) (v : Word) : ControlInv (writeStatus v s) := by
  rw [writeStatus_eq]
  have hcleared {c b : Bool} (h : (if c then false else b) = true) : b = true := by cases c <;> simp_all
  refine { hs with
    errIdle := fun h => hs.errIdle (hcleared h)
    doneIdle := fun h => ?_
    noErrRecord := fun h => ?_
    errCodeNamed := fun h => ?_ }
  · obtain ⟨hidle, herr⟩ := hs.doneIdle (hcleared h)
    exact ⟨hidle, by simp [herr]⟩
  · cases hack : v.getLsbD 2
    · simp only [hack, Bool.false_eq_true, if_false] at h ⊢
      exact hs.noErrRecord h
    · exact ⟨rfl, rfl⟩
  · cases hack : v.getLsbD 2
    · simp only [hack, Bool.false_eq_true, if_false] at h ⊢
      exact hs.errCodeNamed h
    · simp [hack] at h

theorem controlInv_writeDataIn (hs : ControlInv s) (v : Word) : ControlInv (writeDataIn v s) := by
  cases hfull : inFull s
  · rw [writeDataIn_of_not_full v s hfull]
    have hne : s.inq.length ≠ s.cfg.inDepth.toNat := mt (inFull_iff s).mpr (by simp [hfull])
    have hle : (s.inq ++ [v.extractLsb' 0 8]).length ≤ s.cfg.inDepth.toNat := by
      have := hs.inBound
      rw [List.length_append, List.length_singleton]
      omega
    exact { hs with inBound := hle }
  · rw [writeDataIn_of_full v s hfull]
    exact { hs with }

theorem controlInv_busWrite (hs : ControlInv s) (off v : Word) : ControlInv (busWrite off v s) := by
  rcases busWrite_cases off v s with h | ⟨-, h⟩ | ⟨-, h⟩ | ⟨-, h⟩ | ⟨-, h⟩ | ⟨-, h⟩ <;> rw [h]
  · exact hs
  · exact { hs with }
  · exact controlInv_writeStatus hs v
  · rcases writeCmd_cases v s with ⟨-, h⟩ | ⟨-, -, h⟩ | ⟨-, hbusy, herr, h⟩ <;> rw [h]
    · exact controlInv_resetState hs.cfgValid
    · exact { hs with }
    · exact controlInv_acceptCommand hs v hbusy herr
  · exact { hs with }
  · exact controlInv_writeDataIn hs v

theorem controlInv_busReadState (hs : ControlInv s) (off : Word) : ControlInv (busReadState off s) := by
  rcases busReadState_cases off s with h | ⟨-, h⟩ <;> rw [h]
  · exact hs
  · have hlen : s.outq.tail.length ≤ s.outq.length := by simp
    exact { hs with outBound := hlen.trans hs.outBound }

theorem controlInv_applyEvent {e : Event} (hs : ControlInv s) (h : applyEvent e s = .next t) : ControlInv t := by
  cases e with
  | busRead off =>
    injection h with h
    subst h
    exact { controlInv_busReadState hs off with }
  | busWrite off v =>
    injection h with h
    subst h
    exact controlInv_busWrite hs off v
  | hwReset =>
    injection h with h
    subst h
    exact controlInv_resetState hs.cfgValid
  | engine => exact controlInv_engineStep hs h

end

end Sys2Proof.Machine
end

section
/-! PROOFS. The control invariant is kept by every step, and holds after reset (spec/10_state.md). -/

namespace Sys2Proof.Proofs

open Sys2Proof.Machine

/-- Settles O51, by the next event; the engine's by the flags each ending leaves and each command's data path. -/
theorem everyStepKeepsTheControlInvariant : Obligations.EveryStepKeepsTheControlInvariant := by
  unfold Obligations.EveryStepKeepsTheControlInvariant
  intro s t hs h
  rcases step_cases s with ⟨-, hstep⟩ | ⟨e, rest, -, hstep⟩ <;> rw [hstep] at h
  · exact controlInv_engineStep hs h
  · exact controlInv_applyEvent (s := { s with events := rest }) { hs with } h

end Sys2Proof.Proofs
end

section
/-! SUPPORT. The tree builder (spec/42_tree_code.md R112 to R117): the order of keys, the loop's invariant over the pool
of untaken nodes and the arena built so far, and the tree that TREE_BUILD stores. -/

namespace Sys2Proof.Machine

/-! ### Keys (R113) -/

/-- A candidate's key: its weight, then its index. -/
def Cand.key (c : Cand) : Nat ×ₗ Nat := toLex (c.w.toNat, c.idx)

theorem keyLt_iff (a b : Cand) : keyLt a b = true ↔ a.key < b.key := by
  simp [keyLt, Cand.key, Prod.Lex.toLex_lt_toLex, BitVec.ult, ← BitVec.toNat_inj]

/-- No candidate has a smaller key than the least one. -/
theorem key_least_le (c : Cand) (cs : List Cand) : ∀ d ∈ c :: cs, (least c cs).key ≤ d.key := by
  induction cs generalizing c with
  | nil => simp [least]
  | cons d ds ih =>
    have hmin : (if keyLt d c then d else c).key ≤ c.key ∧ (if keyLt d c then d else c).key ≤ d.key := by
      split
      · rename_i hlt
        exact ⟨((keyLt_iff d c).mp hlt).le, le_rfl⟩
      · rename_i hlt
        exact ⟨le_rfl, not_lt.mp (mt (keyLt_iff d c).mpr hlt)⟩
    have hle := ih (if keyLt d c then d else c)
    rw [least]
    intro x hx
    rcases List.mem_cons.mp hx with rfl | hx
    · exact (hle _ List.mem_cons_self).trans hmin.1
    rcases List.mem_cons.mp hx with rfl | hx
    · exact (hle _ List.mem_cons_self).trans hmin.2
    · exact hle x (List.mem_cons_of_mem _ hx)

/-- Taking the least splits it off a pool. -/
theorem takeLeast_spec {a a' : List Cand} {x : Cand} (h : takeLeast a = some (x, a')) :
    a.Perm (x :: a') ∧ ∀ c ∈ a', x.key ≤ c.key := by
  obtain ⟨hmem, rfl, -⟩ := takeLeast_cases h
  refine ⟨List.perm_cons_erase hmem, fun c hc => ?_⟩
  cases a with
  | nil => simp at hmem
  | cons d ds =>
    simp only [takeLeast, Option.some.injEq, Prod.mk.injEq] at h
    obtain ⟨rfl, -⟩ := h
    exact key_least_le d ds c (List.mem_of_mem_erase hc)

/-- Equal keys have equal indices. -/
theorem Cand.key_lt_of_le {a b : Cand} (h : a.key ≤ b.key) (hidx : a.idx ≠ b.idx) : a.key < b.key :=
  lt_of_le_of_ne h fun heq => hidx (congrArg (fun k => (ofLex k).2) heq)

/-! ### The arena as a function of the index -/

/-- The arena built so far; beyond its end nothing is read. -/
def arena (ns : List NodeEntry) (i : Nat) : NodeEntry := ns.getD i NodeEntry.zero

/-- The stored arena; beyond entry 510 nothing is read. -/
def nodeFn (s : State) (i : Nat) : NodeEntry := (s.node[i]?).getD NodeEntry.zero

/-- Node `j` is a child of the internal node `k`. -/
def IsChild (node : Nat → NodeEntry) (j k : Nat) : Prop :=
  (node k).leaf = false ∧ ((node k).left.toNat = j ∨ (node k).right.toNat = j)

/-- Node `i` exists and is untaken when node `k` is created. -/
def Free (node : Nat → NodeEntry) (k i : Nat) : Prop := i < k ∧ ∀ m < k, ¬ IsChild node i m

/-- The key of node `i` (R113). -/
def nodeKey (node : Nat → NodeEntry) (i : Nat) : Nat ×ₗ Nat := toLex ((node i).w.toNat, i)

/-- Node `k` is the parent of the two untaken nodes `x` and `y` of least key, `x` the least (R117). -/
structure MergesAt (node : Nat → NodeEntry) (k x y : Nat) : Prop where
  internal : (node k).leaf = false
  sym : (node k).sym = 0
  left : (node k).left.toNat = x
  right : (node k).right.toNat = y
  weight : (node k).w.toNat = (node x).w.toNat + (node y).w.toNat
  freeLeft : Free node k x
  freeRight : Free node k y
  order : nodeKey node x < nodeKey node y
  least : ∀ z, Free node k z → z ≠ x → z ≠ y → nodeKey node y < nodeKey node z

section
variable {node node' : Nat → NodeEntry} {i j k x y : Nat}

theorem IsChild.congr (h : node k = node' k) : IsChild node j k ↔ IsChild node' j k := by simp [IsChild, h]

theorem Free.congr (h : ∀ m < k, node m = node' m) : Free node k i ↔ Free node' k i :=
  and_congr_right fun _ => forall₂_congr fun m hm => not_congr (IsChild.congr (h m hm))

theorem nodeKey_congr (h : node i = node' i) : nodeKey node i = nodeKey node' i := by simp [nodeKey, h]

/-- A merge looks at no node after the one it creates. -/
theorem MergesAt.congr (h : ∀ m ≤ k, node m = node' m) (hm : MergesAt node k x y) : MergesAt node' k x y := by
  have hlt : ∀ m < k, node m = node' m := fun m hm => h m hm.le
  have hk := h k le_rfl
  have hx := hlt x hm.freeLeft.1
  have hy := hlt y hm.freeRight.1
  exact {
    internal := hk ▸ hm.internal
    sym := hk ▸ hm.sym
    left := hk ▸ hm.left
    right := hk ▸ hm.right
    weight := by rw [← hk, ← hx, ← hy]; exact hm.weight
    freeLeft := (Free.congr hlt).mp hm.freeLeft
    freeRight := (Free.congr hlt).mp hm.freeRight
    order := by rw [← nodeKey_congr hx, ← nodeKey_congr hy]; exact hm.order
    least := fun z hz hzx hzy => by
      rw [← nodeKey_congr hy, ← nodeKey_congr (hlt z hz.1)]
      exact hm.least z ((Free.congr hlt).mpr hz) hzx hzy }

theorem MergesAt.isChild_iff (hm : MergesAt node k x y) : IsChild node j k ↔ j = x ∨ j = y := by
  simp [IsChild, hm.internal, hm.left, hm.right, eq_comm]

end

/-- What is untaken after a merge: the new node, and the untaken nodes but the two merged. -/
theorem MergesAt.free_succ (hm : MergesAt node k x y) (hsmall : ∀ m < k, ∀ j, IsChild node j m → j < m) :
    Free node (k + 1) i ↔ i = k ∨ (Free node k i ∧ i ≠ x ∧ i ≠ y) := by
  have hx := hm.freeLeft.1
  have hy := hm.freeRight.1
  simp only [Free, Nat.lt_succ_iff_lt_or_eq, or_imp, forall_and, forall_eq, hm.isChild_iff, not_or]
  constructor
  · rintro ⟨hi | hi, hfree, hne⟩
    · exact .inr ⟨⟨hi, hfree⟩, hne⟩
    · exact .inl hi
  · rintro (rfl | ⟨⟨hi, hfree⟩, hne⟩)
    · exact ⟨.inr rfl, fun m hlt hchild => (hsmall m hlt i hchild).not_gt hlt, by omega, by omega⟩
    · exact ⟨.inl hi, hfree, hne⟩

theorem arena_concat_of_lt {ns : List NodeEntry} {i : Nat} (e : NodeEntry) (h : i < ns.length) :
    arena (ns ++ [e]) i = arena ns i := by
  simp [arena, List.getElem?_append_left h]

theorem arena_concat_length (ns : List NodeEntry) (e : NodeEntry) : arena (ns ++ [e]) ns.length = e := by
  simp [arena]

/-! ### The loop (R117) -/

/-- The leaf of an entry (R114). -/
def leafOf (e : Byte × Word) : NodeEntry := { leaf := true, sym := e.1, left := 0, right := 0, w := e.2.setWidth 40 }

/-- The parent of two candidates (R114, R117). -/
def parentOf (x y : Cand) : NodeEntry :=
  { leaf := false, sym := 0, left := BitVec.ofNat 9 x.idx, right := BitVec.ofNat 9 y.idx, w := x.w + y.w }

/-- What holds of the pool `a` and the arena `ns` in every round of the loop from the entries `es`. -/
structure BuildInv (es : List (Byte × Word)) (a : List Cand) (ns : List NodeEntry) : Prop where
  few : es.length ≤ 256
  nonempty : a ≠ []
  size : ns.length + a.length = 2 * es.length
  grown : es.length ≤ ns.length
  leaves : ∀ k (h : k < es.length), arena ns k = leafOf es[k]
  merges : ∀ k, es.length ≤ k → k < ns.length → ∃ x y, MergesAt (arena ns) k x y
  weights : ∀ c ∈ a, (arena ns c.idx).w = c.w
  distinct : (a.map Cand.idx).Nodup
  free : ∀ i, i ∈ a.map Cand.idx ↔ Free (arena ns) ns.length i
  total : (a.map fun c => c.w.toNat).sum = (es.map fun e => e.2.toNat).sum

section
variable {es : List (Byte × Word)} {a : List Cand} {ns : List NodeEntry}

/-- 256 counts of 32 bits sum to less than 2^40 (R111). -/
theorem sum_counts_lt (h : es.length ≤ 256) : (es.map fun e => e.2.toNat).sum < 2 ^ 40 := by
  have hle := List.sum_le_card_nsmul (es.map fun e => e.2.toNat) (2 ^ 32 - 1) (by simp; omega)
  simp only [List.length_map, smul_eq_mul] at hle
  omega

/-- The loop begins with every leaf in the pool. -/
theorem buildInv_init (hpos : es ≠ []) (hfew : es.length ≤ 256) : BuildInv es (leafCands es) (leafNodes es) := by
  have hnodes : ∀ k (h : k < es.length), arena (leafNodes es) k = leafOf es[k] := by
    intro k h
    simp [arena, leafNodes, leafOf, h]
  have hidx : (leafCands es).map Cand.idx = List.range es.length := by
    simp [leafCands, List.map_map, Function.comp_def, List.range_eq_range']
  have hlength : (leafNodes es).length = es.length := List.length_map ..
  exact {
    few := hfew
    nonempty := by simpa [leafCands] using hpos
    size := by simp [leafNodes, leafCands]; omega
    grown := hlength.ge
    leaves := hnodes
    merges := fun k hlow hhigh => by omega
    weights := fun c hc => by
      obtain ⟨⟨e, i⟩, hmem, rfl⟩ := List.mem_map.mp hc
      obtain ⟨hi, he⟩ := List.getElem?_eq_some_iff.mp (List.mem_zipIdx_iff_getElem?.mp hmem)
      rw [hnodes i hi, leafOf, he]
    distinct := by rw [hidx]; exact List.nodup_range
    free := fun i => by
      rw [hidx, List.mem_range, hlength]
      refine ⟨fun hi => ⟨hi, fun m hm hchild => ?_⟩, fun h => h.1⟩
      have hleaf := hchild.1
      simp [hnodes m hm, leafOf] at hleaf
    total := by
      have hw (c : Word) : (c.setWidth 40).toNat = c.toNat :=
        (BitVec.toNat_setWidth ..).trans (Nat.mod_eq_of_lt (by have := c.isLt; omega))
      have hfst : es.zipIdx.map (fun p => p.1.2.toNat) = es.map fun e => e.2.toNat := by
        rw [← congrArg (List.map fun e : Byte × Word => e.2.toNat) (List.zipIdx_map_fst 0 es), List.map_map]
        rfl
      simp only [leafCands, List.map_map, Function.comp_def, hw, hfst] }

variable {a₁ a₂ : List Cand} {x y : Cand}

/-- The two least of the pool, split off it (R117). -/
theorem BuildInv.takeTwo (hb : BuildInv es a ns) (hx : takeLeast a = some (x, a₁)) (hy : takeLeast a₁ = some (y, a₂)) :
    a.Perm (x :: y :: a₂) ∧ x.key < y.key ∧ ∀ c ∈ a₂, y.key < c.key := by
  obtain ⟨hpx, hlex⟩ := takeLeast_spec hx
  obtain ⟨hpy, hley⟩ := takeLeast_spec hy
  have hperm : a.Perm (x :: y :: a₂) := hpx.trans (hpy.cons x)
  have hnodup : (x.idx :: y.idx :: a₂.map Cand.idx).Nodup := (hperm.map Cand.idx).nodup_iff.mp hb.distinct
  simp only [List.nodup_cons, List.mem_cons, not_or] at hnodup
  obtain ⟨⟨hxy, -⟩, hya, -⟩ := hnodup
  refine ⟨hperm, Cand.key_lt_of_le (hlex y (hpy.mem_iff.mpr List.mem_cons_self)) hxy, fun c hc => ?_⟩
  exact Cand.key_lt_of_le (hley c hc) fun h => hya (h ▸ List.mem_map_of_mem hc)

theorem BuildInv.nodeKey_eq (hb : BuildInv es a ns) {c : Cand} (hc : c ∈ a) : nodeKey (arena ns) c.idx = c.key := by
  rw [nodeKey, hb.weights c hc, Cand.key]

/-- Children come before their parents. -/
theorem BuildInv.child_lt (hb : BuildInv es a ns) {j k : Nat} (hk : k < ns.length) (h : IsChild (arena ns) j k) :
    j < k := by
  rcases Nat.lt_or_ge k es.length with hlow | hhigh
  · have hleaf := h.1
    simp [hb.leaves k hlow, leafOf] at hleaf
  · obtain ⟨x, y, hm⟩ := hb.merges k hhigh hk
    rcases hm.isChild_iff.mp h with rfl | rfl
    · exact hm.freeLeft.1
    · exact hm.freeRight.1

/-- A round's new node merges the two least nodes of the pool. -/
theorem BuildInv.mergesAt (hb : BuildInv es a ns) (hx : takeLeast a = some (x, a₁)) (hy : takeLeast a₁ = some (y, a₂)) :
    MergesAt (arena (ns ++ [parentOf x y])) ns.length x.idx y.idx := by
  obtain ⟨hperm, hxy, hle⟩ := hb.takeTwo hx hy
  have hxa : x ∈ a := hperm.mem_iff.mpr (by simp)
  have hya : y ∈ a := hperm.mem_iff.mpr (by simp)
  have hfreeX := (hb.free x.idx).mp (List.mem_map_of_mem hxa)
  have hfreeY := (hb.free y.idx).mp (List.mem_map_of_mem hya)
  have hold : ∀ m < ns.length, arena ns m = arena (ns ++ [parentOf x y]) m := fun m hm =>
    (arena_concat_of_lt _ hm).symm
  have hlen : ns.length < 511 := by
    have := hb.size
    have := hb.few
    have := hperm.length_eq
    simp only [List.length_cons] at this
    omega
  have hsum : x.w.toNat + y.w.toNat < 2 ^ 40 := by
    have hperm := (hperm.map fun c => c.w.toNat).sum_eq
    simp only [List.map_cons, List.sum_cons, hb.total] at hperm
    have := sum_counts_lt hb.few
    omega
  exact {
    internal := by rw [arena_concat_length]; rfl
    sym := by rw [arena_concat_length]; rfl
    left := by rw [arena_concat_length]; exact toNat_ofNat_of_lt (hfreeX.1.trans (by omega))
    right := by rw [arena_concat_length]; exact toNat_ofNat_of_lt (hfreeY.1.trans (by omega))
    weight := by
      rw [arena_concat_length, ← hold _ hfreeX.1, ← hold _ hfreeY.1, hb.weights x hxa, hb.weights y hya]
      exact BitVec.toNat_add_of_lt hsum
    freeLeft := (Free.congr hold).mp hfreeX
    freeRight := (Free.congr hold).mp hfreeY
    order := by
      rw [← nodeKey_congr (hold _ hfreeX.1), ← nodeKey_congr (hold _ hfreeY.1), hb.nodeKey_eq hxa, hb.nodeKey_eq hya]
      exact hxy
    least := fun z hz hzx hzy => by
      obtain ⟨c, hc, rfl⟩ := List.mem_map.mp ((hb.free z).mpr ((Free.congr hold).mpr hz))
      rw [← nodeKey_congr (hold _ hfreeY.1), ← nodeKey_congr (hold _ hz.1), hb.nodeKey_eq hya, hb.nodeKey_eq hc]
      have hmem := hperm.mem_iff.mp hc
      simp only [List.mem_cons] at hmem
      rcases hmem with rfl | rfl | hmem
      · exact absurd rfl hzx
      · exact absurd rfl hzy
      · exact hle c hmem }

/-- A round keeps the loop's invariant. -/
theorem BuildInv.round (hb : BuildInv es a ns) (hx : takeLeast a = some (x, a₁)) (hy : takeLeast a₁ = some (y, a₂)) :
    BuildInv es (a₂ ++ [{ w := x.w + y.w, idx := ns.length }]) (ns ++ [parentOf x y]) := by
  obtain ⟨hperm, -, -⟩ := hb.takeTwo hx hy
  have hmerge := hb.mergesAt hx hy
  have hold : ∀ m < ns.length, arena ns m = arena (ns ++ [parentOf x y]) m := fun m hm =>
    (arena_concat_of_lt _ hm).symm
  have hidx : ∀ i, (i = x.idx ∨ i = y.idx ∨ i ∈ a₂.map Cand.idx) ↔ Free (arena ns) ns.length i := fun i => by
    rw [← hb.free, (hperm.map Cand.idx).mem_iff]
    simp only [List.map_cons, List.mem_cons]
  have hnodup : (x.idx :: y.idx :: a₂.map Cand.idx).Nodup := (hperm.map Cand.idx).nodup_iff.mp hb.distinct
  simp only [List.nodup_cons, List.mem_cons, not_or] at hnodup
  obtain ⟨⟨-, hxa⟩, hya, hrest⟩ := hnodup
  have hsize := hb.size
  have hlength := hperm.length_eq
  simp only [List.length_cons] at hlength
  have hlow : ∀ i ∈ a₂.map Cand.idx, i < ns.length := fun i hi => ((hidx i).mp (.inr (.inr hi))).1
  exact {
    few := hb.few
    nonempty := by simp
    size := by simp only [List.length_append, List.length_singleton]; omega
    grown := by rw [List.length_append]; exact hb.grown.trans (Nat.le_add_right ..)
    leaves := fun k h => by rw [← hold k (h.trans_le hb.grown), hb.leaves k h]
    merges := fun k hk hlt => by
      rw [List.length_append, List.length_singleton] at hlt
      rcases Nat.lt_succ_iff_lt_or_eq.mp hlt with hlt | rfl
      · obtain ⟨u, v, hm⟩ := hb.merges k hk hlt
        exact ⟨u, v, hm.congr fun m hm => hold m (by omega)⟩
      · exact ⟨_, _, hmerge⟩
    weights := fun c hc => by
      rcases List.mem_append.mp hc with hc | hc
      · rw [← hold _ (hlow _ (List.mem_map_of_mem hc))]
        exact hb.weights c (hperm.mem_iff.mpr (by simp [hc]))
      · rw [List.mem_singleton.mp hc, arena_concat_length]
        rfl
    distinct := by
      rw [List.map_append, List.map_singleton]
      exact List.nodup_append.mpr ⟨hrest, List.nodup_singleton _, fun i hi j hj => by
        rw [List.mem_singleton.mp hj]; exact (hlow i hi).ne⟩
    free := fun i => by
      rw [List.map_append, List.mem_append, List.map_singleton, List.mem_singleton, List.length_append,
        List.length_singleton]
      have hsmall : ∀ m < ns.length, ∀ j, IsChild (arena (ns ++ [parentOf x y])) j m → j < m := fun m hm j hj =>
        hb.child_lt hm ((IsChild.congr (hold m hm)).mpr hj)
      rw [hmerge.free_succ hsmall, ← Free.congr hold, ← hidx]
      constructor
      · rintro (hi | rfl)
        · exact .inr ⟨.inr (.inr hi), fun h => hxa (h ▸ hi), fun h => hya (h ▸ hi)⟩
        · exact .inl rfl
      · rintro (rfl | ⟨h | h | hi, hnx, hny⟩)
        · exact .inr rfl
        · exact absurd h hnx
        · exact absurd h hny
        · exact .inl hi
    total := by
      have hsum := (hperm.map fun c => c.w.toNat).sum_eq
      have hadd : (x.w + y.w).toNat = x.w.toNat + y.w.toNat := by
        refine BitVec.toNat_add_of_lt ?_
        have := sum_counts_lt hb.few
        simp only [List.map_cons, List.sum_cons, hb.total] at hsum
        omega
      simp only [List.map_append, List.sum_append, List.map_cons, List.map_nil, List.sum_cons, List.sum_nil, hadd,
        hb.total] at hsum ⊢
      omega }

/-- The loop ends with one node in the pool (R117). -/
theorem mergeLoop_spec (k : Nat) (hb : BuildInv es a ns) (hk : a.length ≤ k + 1) :
    ∃ c ns', mergeLoop k a ns = ([c], ns') ∧ BuildInv es [c] ns' := by
  induction k generalizing a ns with
  | zero =>
    obtain ⟨c, rfl⟩ := List.length_eq_one_iff.mp (Nat.le_antisymm hk (List.length_pos_of_ne_nil hb.nonempty))
    exact ⟨c, ns, rfl, hb⟩
  | succ k ih =>
    cases hx : takeLeast a with
    | none => exact absurd ((takeLeast_eq_none_iff a).mp hx) hb.nonempty
    | some r =>
      obtain ⟨x, a₁⟩ := r
      have hlen := (takeLeast_spec hx).1.length_eq
      cases hy : takeLeast a₁ with
      | none =>
        rw [(takeLeast_eq_none_iff a₁).mp hy] at hlen
        obtain ⟨c, rfl⟩ := List.length_eq_one_iff.mp hlen
        exact ⟨c, ns, by simp [mergeLoop, hx, hy], hb⟩
      | some r =>
        obtain ⟨y, a₂⟩ := r
        have hlen' := (takeLeast_spec hy).1.length_eq
        simp only [List.length_cons] at hlen hlen'
        obtain ⟨c, ns', hloop, hb'⟩ := ih (hb.round hx hy) (by simp; omega)
        refine ⟨c, ns', ?_, hb'⟩
        rw [mergeLoop, hx]
        dsimp only
        rw [hy]
        exact hloop

/-- The one node left is the last. -/
theorem BuildInv.root (hb : BuildInv es [x] ns) : x.idx + 1 = ns.length := by
  have hsize := hb.size
  simp only [List.length_singleton] at hsize
  have hlast : ns.length - 1 ∈ [x].map Cand.idx := (hb.free _).mpr ⟨by omega, fun m hm hchild => by
    have := hb.child_lt hm hchild
    omega⟩
  have : ns.length - 1 = x.idx := by simpa using hlast
  omega

end

end Sys2Proof.Machine
end

section
/-! SUPPORT. The tree that TREE_BUILD stores (R112 to R117): what its entries are, that it has the invariant's
shape, and that a path to a node is unique. -/

namespace Sys2Proof.Machine

/-! ### The stored arena -/

section
variable {s t : State}

theorem nodeFn_val (s : State) (k : Fin 511) : nodeFn s k.val = s.node[k] := by simp [nodeFn]

theorem nodeFn_of_nodeAt {i : NodeIdx} {e : NodeEntry} (h : nodeAt s i = some e) : nodeFn s i.toNat = e := by
  rw [nodeFn, ← nodeAt, h, Option.getD_some]

theorem nodeAt_eq_nodeFn {i : NodeIdx} (h : i.toNat < 511) : nodeAt s i = some (nodeFn s i.toNat) := by
  exact (nodeAt_of_lt s i h).trans (congrArg some (nodeFn_val s ⟨i.toNat, h⟩).symm)

theorem childOf_iff {j k : Fin 511} : ChildOf s j k ↔ IsChild (nodeFn s) j.val k.val := by
  rw [ChildOf, IsChild, nodeFn_val]

theorem untaken_iff {i k : Fin 511} : Untaken s k i ↔ Free (nodeFn s) k.val i.val := by
  refine and_congr_right fun _ => ⟨fun h m hm => ?_, fun h m hm => ?_⟩
  · exact mt (childOf_iff (k := ⟨m, hm.trans k.isLt⟩)).mpr (h ⟨m, hm.trans k.isLt⟩ hm)
  · exact mt childOf_iff.mp (h m.val hm)

theorem keyBelow_iff {i j : Fin 511} : KeyBelow s i j ↔ nodeKey (nodeFn s) i.val < nodeKey (nodeFn s) j.val := by
  rw [KeyBelow, nodeKey, nodeKey, Prod.Lex.toLex_lt_toLex, nodeFn_val, nodeFn_val]

/-- The statement's form of a merge (R117). -/
theorem MergesAt.mergesLeast {k : Fin 511} {x y : Nat} (hm : MergesAt (nodeFn s) k.val x y) : MergesLeast s k := by
  have hx := hm.freeLeft.1.trans k.isLt
  have hy := hm.freeRight.1.trans k.isLt
  refine ⟨⟨x, hx⟩, ⟨y, hy⟩, ?_, ?_, ?_, untaken_iff.mpr hm.freeLeft, untaken_iff.mpr hm.freeRight,
    keyBelow_iff.mpr hm.order, fun z hz hzx hzy => keyBelow_iff.mpr (hm.least z (untaken_iff.mp hz) ?_ ?_)⟩
  · rw [← nodeFn_val]
    exact hm.left
  · rw [← nodeFn_val]
    exact hm.right
  · rw [← nodeFn_val, ← nodeFn_val, ← nodeFn_val]
    exact hm.weight
  · exact fun h => hzx (Fin.ext h)
  · exact fun h => hzy (Fin.ext h)

/-! ### The entries (R108, R112) -/

theorem length_presentEntries (s : State) : (presentEntries s.ft).length = nSym s := by
  rw [presentEntries_eq, List.length_map, length_presentSymbols, nSym_eq_card]

/-- The counts of the entries sum to the present symbols' counts. -/
theorem sum_presentEntries (s : State) : ((presentEntries s.ft).map fun e => e.2.toNat).sum =
    ∑ b : Byte, (if (ftAt s b).present = true then (ftAt s b).count.toNat else 0) := by
  have hset : (Finset.univ.filter fun b : Byte => (ftAt s b).present = true) = (presentSymbols s).toFinset := by
    ext b
    simp [mem_presentSymbols]
  rw [← Finset.sum_filter, hset, List.sum_toFinset _ (presentSymbols_nodup s), presentEntries_eq, List.map_map]
  rfl

/-- The entries depend only on the present pairs (R115). -/
theorem presentEntries_congr (h : ∀ b, (ftAt s b).present = (ftAt t b).present ∧
    ((ftAt s b).present = true → (ftAt s b).count = (ftAt t b).count)) :
    presentEntries s.ft = presentEntries t.ft := by
  have hsymbols : presentSymbols s = presentSymbols t := List.filter_congr fun b _ => (h b).1
  rw [presentEntries_eq, presentEntries_eq, ← hsymbols]
  refine List.map_congr_left fun b hb => ?_
  rw [(h b).2 ((mem_presentSymbols s).mp hb)]

/-! ### TREE_BUILD (R117) -/

/-- What TREE_BUILD leaves on a non-empty table: the arena it builds with its last node as ROOT. -/
structure TreeBuilt (s t : State) : Prop where
  table : t.ft = s.ft
  count : t.nodeCount.toNat = 2 * nSym s - 1
  root : t.root.toNat = 2 * nSym s - 2
  leaves : ∀ k (h : k < (presentEntries s.ft).length), nodeFn t k = leafOf (presentEntries s.ft)[k]
  merges : ∀ k, nSym s ≤ k → k < t.nodeCount.toNat → ∃ x y, MergesAt (nodeFn t) k x y
  taken : ∀ j < t.root.toNat, ∃ m < t.nodeCount.toNat, IsChild (nodeFn t) j m
  weight : (nodeFn t t.root.toNat).w.toNat = ((presentEntries s.ft).map fun e => e.2.toNat).sum
  rest : ∀ k : Fin 511, t.nodeCount.toNat ≤ k.val → t.node[k] = s.node[k]

/-- The state TREE_BUILD leaves, with the arena `ns` and ROOT `r`. -/
def withTree (s : State) (ns : List NodeEntry) (r : NodeIdx) : State :=
  complete { s with
    node := storeNodes ns 0 s.node, root := r, nodeCount := BitVec.ofNat 9 ns.length
    treeValid := true, codesValid := false, mode := .idle
    result0 := zext r, result1 := BitVec.ofNat 32 ns.length }

theorem nodeFn_withTree (s : State) (r : NodeIdx) {ns : List NodeEntry} {k : Nat} (hk : k < ns.length)
    (hlen : ns.length ≤ 511) : nodeFn (withTree s ns r) k = arena ns k := by
  have hlt : k < 511 := by omega
  rw [nodeFn_val (withTree s ns r) ⟨k, hlt⟩]
  refine (storeNodes_getElem ns 0 s.node k hlt).trans ?_
  simp [hk, arena]

/-- The arena of a finished loop, stored with its last node as ROOT. -/
theorem BuildInv.treeBuilt {ns : List NodeEntry} {c : Cand} (hb : BuildInv (presentEntries s.ft) [c] ns) :
    TreeBuilt s (withTree s ns (BitVec.ofNat 9 c.idx)) ∧ ns.length = 2 * nSym s - 1 := by
  have hsize := hb.size
  have hfew := hb.few
  have hroot := hb.root
  rw [length_presentEntries] at hsize hfew
  simp only [List.length_singleton] at hsize
  have hcount : (BitVec.ofNat 9 ns.length).toNat = ns.length := toNat_ofNat_of_lt (by omega)
  have hidx : (BitVec.ofNat 9 c.idx).toNat = c.idx := toNat_ofNat_of_lt (by omega)
  have hnode : ∀ k < ns.length, arena ns k = nodeFn (withTree s ns (BitVec.ofNat 9 c.idx)) k := fun k hk =>
    (nodeFn_withTree s _ hk (by omega)).symm
  refine ⟨?_, by omega⟩
  exact {
    table := rfl
    count := hcount.trans (by omega)
    root := hidx.trans (by omega)
    leaves := fun k h => by rw [← hnode k (h.trans_le hb.grown), hb.leaves k h]
    merges := fun k hk hlt => by
      have hlt : k < ns.length := hlt.trans_eq hcount
      obtain ⟨x, y, hm⟩ := hb.merges k (by rw [length_presentEntries]; exact hk) hlt
      exact ⟨x, y, hm.congr fun m hm => hnode m (by omega)⟩
    taken := fun j hj => by
      have hj : j < c.idx := hj.trans_eq hidx
      have hnotFree : ¬ Free (arena ns) ns.length j := fun h => by
        have := (hb.free j).mpr h
        simp only [List.map_singleton, List.mem_singleton] at this
        omega
      simp only [Free, not_and, not_forall, not_not] at hnotFree
      obtain ⟨m, hm, hchild⟩ := hnotFree (by omega)
      exact ⟨m, hm.trans_eq hcount.symm, (IsChild.congr (hnode m hm)).mp hchild⟩
    weight := by
      have hw : (nodeFn (withTree s ns (BitVec.ofNat 9 c.idx)) c.idx).w = c.w := by
        rw [← hnode _ (by omega)]
        exact hb.weights c (List.mem_singleton_self c)
      have hrootIdx : (withTree s ns (BitVec.ofNat 9 c.idx)).root.toNat = c.idx := hidx
      rw [hrootIdx, hw]
      simpa using hb.total
    rest := fun k hk => by
      have hk : ns.length ≤ k.val := hcount.symm.trans_le hk
      refine (storeNodes_getElem ns 0 s.node k.val k.isLt).trans ?_
      simp [hk] }

/-- TREE_BUILD on a non-empty table (R112 to R117). -/
theorem execTreeBuild_of_nonempty (h : nSym s ≠ 0) :
    ∃ ns r, execTreeBuild s = .next (withTree s ns r) ∧ TreeBuilt s (withTree s ns r) ∧ ns.length = 2 * nSym s - 1 := by
  have hlen := length_presentEntries s
  have hinit := buildInv_init (es := presentEntries s.ft) (fun hnil => h (by rw [← hlen, hnil]; rfl))
    (hlen.trans_le (nSym_le s))
  obtain ⟨c, ns, hloop, hb⟩ := mergeLoop_spec (presentEntries s.ft).length hinit (by simp [leafCands])
  obtain ⟨hbuilt, hcount⟩ := hb.treeBuilt
  refine ⟨ns, _, ?_, hbuilt, hcount⟩
  rw [execTreeBuild, if_neg h]
  simp only [buildTree, hloop]
  rfl

/-! ### The shape of the tree (R116) -/

section
variable (hb : TreeBuilt s t)
include hb

/-- The tree has the invariant's shape. -/
theorem TreeBuilt.treeShape (hne : nSym s ≠ 0) : TreeShape t := by
  have hn : nSym t = nSym s := by rw [nSym, nSym, hb.table]
  have hcount := hb.count
  have hroot := hb.root
  have hfew := nSym_le s
  have hentries := length_presentEntries s
  refine {
    nonempty := by omega, count := by omega, rootLast := by omega, leaves := fun k hk => ?_,
    internals := fun k hk hlt => ?_, parents := fun j hj => ?_ }
  · have hk : k.val < (presentEntries s.ft).length := by omega
    have hleaf := hb.leaves k.val hk
    rw [nodeFn_val] at hleaf
    rw [LeafOk, hleaf, hb.table]
    exact ⟨rfl, rfl, rfl, _, List.getElem?_eq_getElem hk, rfl, rfl⟩
  · obtain ⟨x, y, hm⟩ := hb.merges k.val (by omega) hlt
    have hx := hm.freeLeft.1
    have hy := hm.freeRight.1
    have hleft := hm.left
    have hright := hm.right
    have hweight := hm.weight
    have hinternal := hm.internal
    have hsym := hm.sym
    have hk := k.isLt
    rw [nodeFn_val] at hleft hright hweight hinternal hsym
    refine ⟨hinternal, hsym, by omega, by omega, fun h => ?_, _, nodeAt_eq_nodeFn (by omega), _,
      nodeAt_eq_nodeFn (by omega), ?_⟩
    · have horder := hm.order
      rw [show x = y by rw [← hleft, ← hright, h]] at horder
      exact lt_irrefl _ horder
    · rw [hleft, hright]
      refine BitVec.eq_of_toNat_eq (hweight.trans (BitVec.toNat_add_of_lt ?_).symm)
      rw [← hweight]
      exact BitVec.isLt _
  · obtain ⟨m, hm, hchild⟩ := hb.taken j.val hj
    exact ⟨⟨m, by omega⟩, hm, childOf_iff.mpr hchild⟩

/-- A node is merged once: it has one parent. -/
theorem TreeBuilt.parent_unique {j k k' : Nat} (hk : k < t.nodeCount.toNat) (hk' : k' < t.nodeCount.toNat)
    (h : IsChild (nodeFn t) j k) (h' : IsChild (nodeFn t) j k') : k = k' := by
  have hlate {k k' : Nat} (hk' : k' < t.nodeCount.toNat) (h : IsChild (nodeFn t) j k)
      (h' : IsChild (nodeFn t) j k') : ¬ k < k' := fun hlt => by
    rcases Nat.lt_or_ge k' (nSym s) with hlow | hhigh
    · have hleaf := h'.1
      rw [hb.leaves k' (by rw [length_presentEntries]; exact hlow)] at hleaf
      simp [leafOf] at hleaf
    · obtain ⟨x, y, hm⟩ := hb.merges k' hhigh hk'
      have hfree : Free (nodeFn t) k' j := by
        rcases hm.isChild_iff.mp h' with rfl | rfl
        · exact hm.freeLeft
        · exact hm.freeRight
      exact hfree.2 k hlt h
  have hnot := hlate hk' h h'
  have hnot' := hlate hk h' h
  omega

end

/-! ### Unique paths (R116) -/

/-- The last step of a path. -/
theorem follow_concat {i j : NodeIdx} {p : List Bool} {b : Bool} (h : follow s i (p ++ [b]) = some j) :
    ∃ k e, follow s i p = some k ∧ nodeAt s k = some e ∧ e.leaf = false ∧ (if b then e.right else e.left) = j := by
  induction p generalizing i with
  | nil =>
    cases he : nodeAt s i with
    | none => simp [follow, he] at h
    | some e =>
      cases hl : e.leaf with
      | true => simp [follow_cons_of_leaf he hl] at h
      | false =>
        rw [List.nil_append, follow_cons_of_internal he hl] at h
        exact ⟨i, e, rfl, he, hl, Option.some.inj h⟩
  | cons c p ih =>
    cases he : nodeAt s i with
    | none => simp [follow, he] at h
    | some e =>
      cases hl : e.leaf with
      | true => simp [follow_cons_of_leaf he hl] at h
      | false =>
        rw [List.cons_append, follow_cons_of_internal he hl] at h
        rw [follow_cons_of_internal he hl]
        exact ih h

theorem isChild_of_nodeAt {k : NodeIdx} {e : NodeEntry} (he : nodeAt s k = some e) (hl : e.leaf = false) (b : Bool) :
    IsChild (nodeFn s) (if b then e.right else e.left).toNat k.toNat := by
  rw [IsChild, nodeFn_of_nodeAt he]
  cases b
  · exact ⟨hl, .inl rfl⟩
  · exact ⟨hl, .inr rfl⟩

/-- Only the empty path leads from ROOT to ROOT: each step goes to a smaller index. -/
theorem TreeShape.eq_nil_of_follow_root (hs : TreeShape s) {p : List Bool} (h : follow s s.root p = some s.root) :
    p = [] := by
  have hbound := hs.follow_bound le_rfl h
  exact List.length_eq_zero_iff.mp (by omega)

/-- A path to a node other than ROOT ends with the step from the node's parent. -/
theorem TreeShape.follow_to_child (hs : TreeShape s) {j : NodeIdx} {p : List Bool} (hj : j ≠ s.root)
    (h : follow s s.root p = some j) :
    ∃ q b k e, p = q ++ [b] ∧ follow s s.root q = some k ∧ nodeAt s k = some e ∧ e.leaf = false ∧
      (if b then e.right else e.left) = j ∧ j.toNat < k.toNat ∧ k.toNat ≤ s.root.toNat := by
  rcases List.eq_nil_or_concat p with rfl | ⟨q, b, rfl⟩
  · exact absurd (Option.some.inj h).symm hj
  · rw [List.concat_eq_append] at h ⊢
    obtain ⟨k, e, hq, he, hl, hchild⟩ := follow_concat h
    have hroot := hs.root_add_two
    have hbound := hs.follow_bound le_rfl hq
    have hk : k.toNat ≤ s.root.toNat := by omega
    refine ⟨q, b, k, e, rfl, hq, he, hl, hchild, ?_, hk⟩
    obtain ⟨f, hf, ⟨-, hleaf, -⟩ | ⟨-, -, hleft, hright⟩⟩ := hs.node_cases hk
    · simp [Option.some.inj (hf.symm.trans he), hl] at hleaf
    · rw [Option.some.inj (hf.symm.trans he)] at hleft hright
      rw [← hchild]
      cases b <;> assumption

/-- Two steps of different direction lead to different children. -/
theorem TreeBuilt.step_unique (hb : TreeBuilt s t) {k : NodeIdx} {e : NodeEntry} {b c : Bool}
    (hk : k.toNat < t.nodeCount.toNat) (he : nodeAt t k = some e) (hl : e.leaf = false)
    (h : (if b then e.right else e.left) = (if c then e.right else e.left)) : b = c := by
  have hne : e.left ≠ e.right := by
    rw [← nodeFn_of_nodeAt he] at hl ⊢
    rcases Nat.lt_or_ge k.toNat (nSym s) with hlow | hhigh
    · rw [hb.leaves k.toNat (by rw [length_presentEntries]; exact hlow)] at hl
      simp [leafOf] at hl
    · obtain ⟨x, y, hm⟩ := hb.merges k.toNat hhigh hk
      intro heq
      have horder := hm.order
      rw [show x = y by rw [← hm.left, ← hm.right, heq]] at horder
      exact lt_irrefl _ horder
  cases b <;> cases c
  · rfl
  · exact absurd h hne
  · exact absurd h.symm hne
  · rfl

/-- The path from ROOT to a node is unique, since parents are (R116). -/
theorem TreeBuilt.follow_unique (hb : TreeBuilt s t) (hs : TreeShape t) {j : NodeIdx} {p q : List Bool}
    (hp : follow t t.root p = some j) (hq : follow t t.root q = some j) : p = q := by
  induction p using List.reverseRecOn generalizing j q with
  | nil =>
    cases hp
    exact (hs.eq_nil_of_follow_root hq).symm
  | append_singleton p b ih =>
    have hj : j ≠ t.root := by
      rintro rfl
      exact absurd (hs.eq_nil_of_follow_root hp) (by simp)
    obtain ⟨p', b', k, e, hpp, hpk, he, hl, hchild, -, hk⟩ := hs.follow_to_child hj hp
    obtain ⟨q', c, k', e', rfl, hqk, he', hl', hchild', -, hk'⟩ := hs.follow_to_child hj hq
    obtain ⟨rfl, hb'⟩ := List.append_inj' hpp rfl
    obtain rfl : b = b' := by simpa using hb'
    have hk := hs.lt_nodeCount_iff.mpr hk
    have hk' := hs.lt_nodeCount_iff.mpr hk'
    have hparent := isChild_of_nodeAt he hl b
    have hparent' := isChild_of_nodeAt he' hl' c
    rw [hchild] at hparent
    rw [hchild'] at hparent'
    obtain rfl : k = k' := BitVec.eq_of_toNat_eq (hb.parent_unique hk hk' hparent hparent')
    obtain rfl : e = e' := Option.some.inj (he.symm.trans he')
    rw [ih hpk hqk, hb.step_unique hk he hl (hchild.trans hchild'.symm)]

end

end Sys2Proof.Machine
end

section
/-! PROOFS. The statements about TREE_BUILD (spec/42_tree_code.md). -/

namespace Sys2Proof.Proofs

open Sys2Proof.Machine

/-- Settles O32: the loop merges the two least candidates, which are the untaken nodes of least key, and its arena
is stored from entry 0 on. -/
theorem treeBuildMergesTheLeastPairs : Obligations.TreeBuildMergesTheLeastPairs := by
  unfold Obligations.TreeBuildMergesTheLeastPairs
  obtain ⟨-, -, -, -, -, -, -, -, htreeBuild, -⟩ := decodeFollowsTheOpcodeMap 0x20000000
  refine ⟨htreeBuild.mpr rfl, fun s => ⟨fun h => if_pos h, fun h => ?_⟩⟩
  obtain ⟨ns, r, hexec, hb, hlen⟩ := execTreeBuild_of_nonempty h
  have hfew := nSym_le s
  have hresult1 : BitVec.ofNat 32 ns.length = (withTree s ns r).nodeCount.setWidth 32 := by
    refine BitVec.eq_of_toNat_eq ?_
    rw [BitVec.toNat_setWidth, hb.count, BitVec.toNat_ofNat, hlen]
  refine ⟨_, hexec, ?_, hb.count, hb.root, fun k hk => ?_, fun k hk hlt => ?_, hb.rest⟩
  · rw [← hresult1]
    rfl
  · have hk' : k.val < (presentSymbols s).length := by rwa [length_presentSymbols, ← nSym_eq_card]
    have hleaf := hb.leaves k.val (by rwa [length_presentEntries])
    simp only [presentEntries_eq, List.getElem_map] at hleaf
    rw [nodeFn_val] at hleaf
    exact ⟨(presentSymbols s)[k.val], (mem_presentSymbols s).mp (List.getElem_mem hk'),
      presentBelow_getElem_presentSymbols s hk', hleaf⟩
  · obtain ⟨x, y, hm⟩ := hb.merges k.val hk hlt
    rw [← nodeFn_val]
    exact ⟨hm.internal, hm.sym, hm.mergesLeast⟩

/-- Settles O33: at the end of the loop only ROOT is untaken, a node is merged once, and the loop keeps the pool's
total weight. -/
theorem treeBuildGivesATree : Obligations.TreeBuildGivesATree := by
  unfold Obligations.TreeBuildGivesATree
  intro s t hne h
  obtain ⟨ns, r, hexec, hb, -⟩ := execTreeBuild_of_nonempty hne
  obtain rfl : withTree s ns r = t := Host.Outcome.next.inj (hexec.symm.trans h)
  have hs := hb.treeShape hne
  have hroot := hs.root_add_two
  have hn : nSym (withTree s ns r) = nSym s := rfl
  have hfew := nSym_le s
  refine ⟨hs, fun j hj => ?_, _, nodeAt_eq_nodeFn (by omega), hb.weight.trans (sum_presentEntries s)⟩
  have hle : (BitVec.ofNat 9 j.val).toNat ≤ (withTree s ns r).root.toNat := by
    rw [toNat_ofNat_of_lt (by omega)]
    omega
  obtain ⟨p, hp⟩ := hs.exists_follow hle
  exact ⟨p, hp, fun q hq => hb.follow_unique hs hq hp⟩

/-- Settles O34: the arena is a function of the present entries. -/
theorem treeDependsOnlyOnThePresentPairs : Obligations.TreeDependsOnlyOnThePresentPairs := by
  unfold Obligations.TreeDependsOnlyOnThePresentPairs
  intro s s' t t' hsame hne h h'
  have hentries := presentEntries_congr hsame
  have hne' : nSym s' ≠ 0 := by rwa [← length_presentEntries, ← hentries, length_presentEntries]
  rcases execTreeBuild_cases h with ⟨hzero, -⟩ | ⟨-, nodes, root, hbuild, rfl⟩
  · exact absurd hzero hne
  rcases execTreeBuild_cases h' with ⟨hzero, -⟩ | ⟨-, nodes', root', hbuild', rfl⟩
  · exact absurd hzero hne'
  rw [← hentries, hbuild] at hbuild'
  obtain ⟨rfl, rfl⟩ := Prod.mk.inj hbuild'
  refine ⟨rfl, rfl, fun k hk => ?_⟩
  have hk : k.val < nodes.length := hk.trans_le ((BitVec.toNat_ofNat ..).trans_le (Nat.mod_le ..))
  have hstored (v : Vector NodeEntry 511) : (storeNodes nodes 0 v)[k.val] = nodes[k.val] := by
    rw [storeNodes_getElem]
    simp [hk]
  exact (hstored s.node).trans (hstored s'.node).symm

end Sys2Proof.Proofs
end

section
/-! SUPPORT. What an engine step does to the tables FT, NODE and CODE (R97, R117, R118), and the table part of the
invariant (R48, R55, R109, R116, R129). -/

namespace Sys2Proof.Machine

/-! ### The four ways an engine step treats the tables -/

/-- The tables and their valid bits are the same. -/
structure KeepsTables (s t : State) : Prop where
  ft : t.ft = s.ft
  node : t.node = s.node
  root : t.root = s.root
  nodeCount : t.nodeCount = s.nodeCount
  treeValid : t.treeValid = s.treeValid
  code : t.code = s.code
  codesValid : t.codesValid = s.codesValid

/-- The walk is the same, at ROOT, or where one bit leads from an open walk (R128, R129). -/
abbrev WalkStep (s t : State) : Prop :=
  t.mode = .dec → (s.mode = .dec ∧ (t.decWalk = s.decWalk ∨ walkMove s = .move t.decWalk)) ∨ t.decWalk = s.root

/-- What a step does to the tables: nothing; a change of FT with no tree left valid; a new tree; or a new code table. -/
inductive TableStep (s t : State) : Prop
  | keeps (tables : KeepsTables s t) (walk : WalkStep s t)
  | invalidates (tree : t.treeValid = false) (codes : t.codesValid = false) (mode : t.mode ≠ .dec)
      (absent : ∀ b, (ftAt t b).present = false → (ftAt t b).count = 0 ∨ ftAt t b = ftAt s b)
  | builds (nonempty : nSym s ≠ 0) (tree : TreeBuilt s t) (codes : t.codesValid = false) (mode : t.mode ≠ .dec)
  | generates (treeBefore : s.treeValid = true) (generated : execCodeGen s = .next t) (ft : t.ft = s.ft)
      (node : t.node = s.node) (root : t.root = s.root) (nodeCount : t.nodeCount = s.nodeCount) (mode : t.mode ≠ .dec)

section
variable {i : Instr} {s t : State}

theorem KeepsTables.refl (s : State) : KeepsTables s s := by constructor <;> rfl

theorem TableStep.unchanged : TableStep s s := .keeps (.refl s) fun h => .inl ⟨h, .inl rfl⟩

theorem TableStep.raises (c : ErrCode) (info : Word) : TableStep s (raiseError c info s) :=
  .keeps (by constructor <;> rfl) fun h => .inl ⟨h, .inl rfl⟩

theorem TableStep.completes : TableStep s (complete s) := .keeps (by constructor <;> rfl) fun h => .inl ⟨h, .inl rfl⟩

/-- An entry written present leaves the others (R105, R107). -/
theorem ftAt_ftSet_present {x : Byte} {c : Word} {b : Byte}
    (h : (ftAt (ftSet x { present := true, count := c } s) b).present = false) :
    ftAt (ftSet x { present := true, count := c } s) b = ftAt s b := by
  rw [ftAt_ftSet] at h ⊢
  split
  · rename_i hb
    simp [hb] at h
  · rfl

/-- FT_COUNT's start part invalidates; its RUN step finds no tree valid (R105). -/
theorem execFtCount_tables (hs : ControlInv s) (hdec : decode s.cur = .ok .ftCount) (h : execFtCount s = .next t) :
    TableStep s t := by
  rcases execFtCount_cases h with ⟨-, rfl⟩ | ⟨hph, h⟩
  · exact .invalidates rfl rfl nofun fun b _ => .inr rfl
  · have hv := hs.ftCount_treeValid hph hdec
    obtain ⟨hcodes, -, hmode⟩ := (hs.pathInv (.inr (by simp [hdec]))).invalid_of_no_tree hv
    rcases ftCountRun_cases h with ⟨-, rfl⟩ | ⟨-, -, rfl⟩ | ⟨b, rest, -, -, -, rfl⟩ | ⟨b, rest, -, -, -, rfl⟩
    · exact .completes
    · exact .unchanged
    · exact .raises ..
    · exact .invalidates hv hcodes hmode fun b hb => .inr (ftAt_ftSet_present hb)

/-- ENC_DATA and ENC_FLUSH touch no table; a decoding is not open in them. -/
theorem encDataRun_tables (h : encDataRun s = .next t) : TableStep s t := by
  rcases encDataRun_cases h with ⟨-, -, rfl⟩ | ⟨-, -, rfl⟩ | ⟨-, -, rfl⟩ | ⟨-, -, -, -, rfl⟩ |
    ⟨b, rest, -, -, -, -, -, rfl⟩ | ⟨b, rest, -, -, -, -, -, rfl⟩ | ⟨-, -, -, rfl⟩
  case inl | inr.inr.inr.inl => exact .unchanged
  case inr.inr.inr.inr.inl => exact .raises ..
  all_goals exact .keeps (by constructor <;> rfl) fun h => .inl ⟨h, .inl rfl⟩

/-- DEC_DATA moves the walk only. -/
theorem decDataRun_tables (hm : s.mode = .dec) (h : decDataRun s = .next t) : TableStep s t := by
  rcases decDataRun_cases h with ⟨-, -, rfl⟩ | ⟨x, -, -, -, rfl⟩ | ⟨x, -, -, -, rfl⟩ | ⟨nxt, -, hmove, rfl⟩ |
    ⟨-, -, -, rfl⟩ | ⟨b, rest, -, -, -, rfl⟩ | ⟨-, -, rfl⟩
  · exact .raises ..
  · exact .unchanged
  · exact .keeps (by constructor <;> rfl) fun _ => .inr rfl
  · exact .keeps (by constructor <;> rfl) fun _ => .inl ⟨hm, .inr hmove⟩
  · exact .unchanged
  · exact .keeps (by constructor <;> rfl) fun _ => .inl ⟨hm, .inl rfl⟩
  · exact .completes

/-- What each command does to the tables. -/
theorem exec_tables (hs : ControlInv s) (hdec : decode s.cur = .ok i) (hne : i ≠ .reset) (h : exec i s = .next t) :
    TableStep s t := by
  cases i with
  | reset => exact absurd rfl hne
  | nop | fifoClr | ftRead =>
    injection h with h
    subst h
    exact .keeps (by constructor <;> rfl) fun h => .inl ⟨h, .inl rfl⟩
  | ftClear =>
    injection h with h
    subst h
    exact .invalidates rfl rfl nofun fun b _ => .inl (congrArg FtEntry.count (Vector.getElem_replicate ..))
  | ftCount => exact execFtCount_tables hs hdec h
  | ftLoad x =>
    rcases execFtLoad_cases h with ⟨-, rfl⟩ | ⟨-, rfl⟩
    · exact .raises ..
    · exact .invalidates rfl rfl nofun fun b hb => .inr (ftAt_ftSet_present hb)
  | ftGet k =>
    rcases execFtGet_cases h with ⟨-, rfl⟩ | ⟨_, _, -, rfl⟩
    · exact .raises ..
    · exact .keeps (by constructor <;> rfl) fun h => .inl ⟨h, .inl rfl⟩
  | treeBuild =>
    by_cases hempty : nSym s = 0
    · obtain rfl := Host.Outcome.next.inj ((if_pos hempty).symm.trans h)
      exact .raises ..
    · obtain ⟨ns, r, hexec, hb, -⟩ := execTreeBuild_of_nonempty hempty
      obtain rfl := Host.Outcome.next.inj (hexec.symm.trans h)
      exact .builds hempty hb rfl nofun
  | codeGen =>
    have hgen : execCodeGen s = .next t := h
    rcases execCodeGen_cases h with ⟨-, rfl⟩ | ⟨hv, _, _, -, -, rfl⟩
    · exact .raises ..
    · exact .generates hv hgen rfl rfl rfl rfl nofun
  | nodeRead k =>
    rcases execNodeRead_cases h with ⟨-, rfl⟩ | ⟨-, -, rfl⟩ | ⟨-, -, _, -, rfl⟩
    · exact .raises ..
    · exact .raises ..
    · exact .keeps (by constructor <;> rfl) fun h => .inl ⟨h, .inl rfl⟩
  | codeRead x w =>
    rcases execCodeRead_cases h with ⟨-, rfl⟩ | ⟨-, rfl⟩
    · exact .raises ..
    · exact .keeps (by constructor <;> rfl) fun h => .inl ⟨h, .inl rfl⟩
  | encInit =>
    rcases execEncInit_cases h with ⟨-, rfl⟩ | ⟨-, rfl⟩
    · exact .raises ..
    · exact .keeps (by constructor <;> rfl) nofun
  | encData =>
    rcases execEncData_cases h with ⟨-, -, rfl⟩ | ⟨-, -, rfl⟩ | ⟨-, h⟩
    · exact .raises ..
    · exact .keeps (by constructor <;> rfl) fun h => .inl ⟨h, .inl rfl⟩
    · exact encDataRun_tables h
  | encFlush =>
    rcases execEncFlush_cases h with ⟨-, -, rfl⟩ | ⟨-, -, rfl⟩ | ⟨-, h⟩
    · exact .raises ..
    · exact .keeps (by constructor <;> rfl) fun h => .inl ⟨h, .inl rfl⟩
    · rcases encFlushRun_cases h with ⟨-, -, rfl⟩ | ⟨-, -, rfl⟩ | ⟨-, rfl⟩
      · exact .unchanged
      · exact .keeps (by constructor <;> rfl) nofun
      · exact .keeps (by constructor <;> rfl) nofun
  | decInit p =>
    rcases execDecInit_cases h with ⟨-, rfl⟩ | ⟨-, -, rfl⟩ | ⟨-, -, -, rfl⟩ | ⟨-, -, -, rfl⟩
    · exact .raises ..
    · exact .raises ..
    · exact .raises ..
    · exact .keeps (by constructor <;> rfl) fun _ => .inr rfl
  | decData =>
    rcases execDecData_cases h with ⟨-, -, rfl⟩ | ⟨-, -, -, rfl⟩ | ⟨-, -, -, rfl⟩ | ⟨hph, h⟩
    · exact .raises ..
    · exact .raises ..
    · exact .keeps (by constructor <;> rfl) fun h => .inl ⟨h, .inl rfl⟩
    · exact decDataRun_tables (hs.decData_mode hph hdec).1 h
  | decFinish =>
    rcases execDecFinish_cases h with ⟨-, rfl⟩ | ⟨-, -, rfl⟩ | ⟨-, -, -, rfl⟩ | ⟨-, -, -, -, rfl⟩
    · exact .raises ..
    · exact .raises ..
    · exact .raises ..
    · exact .keeps (by constructor <;> rfl) nofun

theorem engineStep_tables (hs : ControlInv s) (h : engineStep s = .next t) : TableStep s t := by
  rcases engineStep_cases h with ⟨-, rfl⟩ | ⟨-, -, -, rfl⟩ | ⟨i, -, -, hdec, hne, h⟩ | ⟨i, -, -, hdec, hi, h⟩
  · exact .unchanged
  · exact .raises ..
  · exact exec_tables hs hdec hne h
  · exact exec_tables hs hdec (ne_reset_of_streaming hi) h

/-! ### The table part of the invariant -/

/-- The shape of a tree is a matter of FT, NODE, ROOT and NODE_COUNT. -/
theorem TreeShape.congr (hs : TreeShape s) (hft : t.ft = s.ft) (hnode : t.node = s.node) (hroot : t.root = s.root)
    (hcount : t.nodeCount = s.nodeCount) : TreeShape t := by
  obtain ⟨hpos, hsize, hlast, hleaves, hinternals, hparents⟩ := hs
  have hn : nSym t = nSym s := by rw [nSym, nSym, hft]
  have hat (i : NodeIdx) : nodeAt t i = nodeAt s i := by rw [nodeAt, nodeAt, hnode]
  refine ⟨by rwa [hn], by rwa [hn, hcount], by rwa [hroot, hcount], fun k hk => ?_, fun k hk hlt => ?_, fun j hj => ?_⟩
  · have hleaf := hleaves k (hn ▸ hk)
    simpa only [LeafOk, hnode, hft] using hleaf
  · have hinternal := hinternals k (hn ▸ hk) (hcount ▸ hlt)
    simpa only [InternalOk, hnode, hat] using hinternal
  · have hparent := hparents j (hroot ▸ hj)
    simpa only [ChildOf, hnode, hcount] using hparent

/-- With nothing valid and no walk open only the absent entries matter. -/
theorem tableInv_of_invalid (hv : t.treeValid = false) (hc : t.codesValid = false) (hm : t.mode ≠ .dec)
    (habsent : ∀ b, (ftAt t b).present = false → (ftAt t b).count = 0) : TableInv t where
  absentZero := habsent
  tree := fun h => absurd (hv.symm.trans h) nofun
  walk := fun h => absurd h hm
  codeWidth := fun h => absurd (hc.symm.trans h) nofun

/-- The node a bit leads to, when it is no leaf, is an internal node of the tree (R129). -/
theorem TreeShape.internal_of_move (hs : TreeShape s) {nxt : NodeIdx} (hw : s.decWalk.toNat ≤ s.root.toNat)
    (hmove : walkMove s = .move nxt) :
    nxt.toNat < s.nodeCount.toNat ∧ ∃ e ∈ nodeAt s nxt, e.leaf = false := by
  rcases walkMove_cases s with ⟨-, h⟩ | ⟨e, -, -, -, h⟩ |
    ⟨e, nxt', he, hok, hnxt, ⟨-, h⟩ | ⟨f, -, -, h⟩ | ⟨f, hf, hleaf, h⟩⟩
  · simp [hmove] at h
  · simp [hmove] at h
  · simp [hmove] at h
  · simp [hmove] at h
  · obtain rfl : nxt = nxt' := by simpa [hmove] using h
    refine ⟨hs.lt_nodeCount_iff.mpr ?_, f, hf, hleaf⟩
    obtain ⟨g, hg, ⟨-, hl, -⟩ | ⟨-, hl, hleft, hright⟩⟩ := hs.node_cases hw
    · rw [Option.some.inj (hg.symm.trans he)] at hl
      rw [hnxt, hl]
      exact hw
    · rw [Option.some.inj (hg.symm.trans he)] at hl hleft hright
      rw [hnxt, hl]
      cases s.decSh.getLsbD 7
      · exact hleft.le.trans hw
      · exact hright.le.trans hw

theorem TableInv.walk_le (hs : TableInv s) (hv : s.treeValid = true) (hm : s.mode = .dec) :
    s.decWalk.toNat ≤ s.root.toNat := by
  rcases hs.walk hm with h | ⟨h, -⟩
  · rw [h]
  · exact (hs.tree hv).lt_nodeCount_iff.mp h

/-- A state with the same tables, and with its walk at ROOT or at an internal node. -/
theorem TableInv.of_keepsTables (hs : TableInv s) (tables : KeepsTables s t)
    (hwalk : t.mode = .dec → t.decWalk = s.root ∨
      (t.decWalk.toNat < s.nodeCount.toNat ∧ ∃ e ∈ nodeAt s t.decWalk, e.leaf = false)) : TableInv t := by
  have hft (b : Byte) : ftAt t b = ftAt s b := by simp only [ftAt, tables.ft]
  have hcode (b : Byte) : codeAt t b = codeAt s b := by simp only [codeAt, tables.code]
  have hat (i : NodeIdx) : nodeAt t i = nodeAt s i := by rw [nodeAt, nodeAt, tables.node]
  refine ⟨fun b => ?_, fun hv => ?_, fun hm => ?_, fun hv b => ?_⟩
  · rw [hft]
    exact hs.absentZero b
  · exact (hs.tree (tables.treeValid.symm.trans hv)).congr tables.ft tables.node tables.root tables.nodeCount
  · rw [tables.root, tables.nodeCount, hat]
    exact hwalk hm
  · rw [hcode]
    exact hs.codeWidth (tables.codesValid.symm.trans hv) b

/-- Every engine step keeps the table part. -/
theorem tableInv_engineStep (hc : ControlInv s) (hs : TableInv s) (h : engineStep s = .next t) : TableInv t := by
  cases engineStep_tables hc h with
  | keeps tables walk =>
    refine hs.of_keepsTables tables fun hm => ?_
    rcases walk hm with ⟨hdec, hsame | hmove⟩ | hroot
    · rw [hsame]
      exact hs.walk hdec
    · have hv := hc.decNeedsTree hdec
      exact .inr ((hs.tree hv).internal_of_move (hs.walk_le hv hdec) hmove)
    · exact .inl hroot
  | invalidates tree codes mode absent =>
    refine tableInv_of_invalid tree codes mode fun b hb => ?_
    rcases absent b hb with hzero | hsame
    · exact hzero
    · rw [hsame] at hb ⊢
      exact hs.absentZero b hb
  | builds nonempty tree codes mode =>
    refine ⟨fun b => ?_, fun _ => tree.treeShape nonempty, fun hm => absurd hm mode,
      fun hv => absurd (codes.symm.trans hv) nofun⟩
    simp only [ftAt, tree.table]
    exact hs.absentZero b
  | generates treeBefore generated ft node root nodeCount mode =>
    have hshape := hs.tree treeBefore
    obtain ⟨-, hcodeGen⟩ := Proofs.codeGenGivesTheTreePaths
    obtain ⟨t', hexec, -, -, -, hwidth, -⟩ := (hcodeGen s).2 treeBefore hshape
    obtain rfl : t' = t := Host.Outcome.next.inj (hexec.symm.trans generated)
    refine ⟨fun b => ?_, fun _ => hshape.congr ft node root nodeCount, fun hm => absurd hm mode, fun _ => hwidth⟩
    simp only [ftAt, ft]
    exact hs.absentZero b

theorem tableInv_resetState (s : State) : TableInv (resetState s) :=
  tableInv_of_invalid rfl rfl nofun fun b _ => congrArg FtEntry.count (ftAt_resetState s b)

/-- A host write touches no table, no MODE and no walk, but for the reset (R100). -/
theorem busWrite_keeps_or_resets (off v : Word) (s : State) :
    (KeepsTables s (busWrite off v s) ∧ (busWrite off v s).mode = s.mode ∧ (busWrite off v s).decWalk = s.decWalk) ∨
    busWrite off v s = resetState s := by
  rcases busWrite_cases off v s with h | ⟨-, h⟩ | ⟨-, h⟩ | ⟨-, h⟩ | ⟨-, h⟩ | ⟨-, h⟩ <;> rw [h]
  · exact .inl ⟨.refl s, rfl, rfl⟩
  · exact .inl ⟨by constructor <;> rfl, rfl, rfl⟩
  · rw [writeStatus_eq]
    exact .inl ⟨by constructor <;> rfl, rfl, rfl⟩
  · rcases writeCmd_cases v s with ⟨-, h⟩ | ⟨-, -, h⟩ | ⟨-, -, -, h⟩ <;> rw [h]
    · exact .inr rfl
    · exact .inl ⟨by constructor <;> rfl, rfl, rfl⟩
    · exact .inl ⟨by constructor <;> rfl, rfl, rfl⟩
  · exact .inl ⟨by constructor <;> rfl, rfl, rfl⟩
  · cases hfull : inFull s
    · rw [writeDataIn_of_not_full v s hfull]
      exact .inl ⟨by constructor <;> rfl, rfl, rfl⟩
    · rw [writeDataIn_of_full v s hfull]
      exact .inl ⟨by constructor <;> rfl, rfl, rfl⟩

theorem tableInv_busWrite (hs : TableInv s) (off v : Word) : TableInv (busWrite off v s) := by
  rcases busWrite_keeps_or_resets off v s with ⟨tables, hmode, hwalk⟩ | h
  · refine hs.of_keepsTables tables fun hdec => ?_
    rw [hwalk]
    exact hs.walk (hmode.symm.trans hdec)
  · rw [h]
    exact tableInv_resetState s

theorem tableInv_busRead (hs : TableInv s) (off : Word) (rs : List Word) :
    TableInv { busReadState off s with reads := rs } := by
  rcases busReadState_cases off s with h | ⟨-, h⟩ <;> rw [h] <;>
    exact hs.of_keepsTables (by constructor <;> rfl) hs.walk

/-! ### The invariant after any event -/

theorem inv_resetState (h : s.cfg.Valid) : Inv (resetState s) := ⟨controlInv_resetState h, tableInv_resetState s⟩

theorem inv_applyEvent {e : Event} (hs : Inv s) (h : applyEvent e s = .next t) : Inv t := by
  refine ⟨controlInv_applyEvent hs.control h, ?_⟩
  cases e with
  | busRead off =>
    injection h with h
    subst h
    exact tableInv_busRead hs.table off _
  | busWrite off v =>
    injection h with h
    subst h
    exact tableInv_busWrite hs.table off v
  | hwReset =>
    injection h with h
    subst h
    exact tableInv_resetState s
  | engine => exact tableInv_engineStep hs.control hs.table h

/-- The event list is no part of the invariant. -/
theorem Inv.with_events (hs : Inv s) (es : List Event) : Inv { s with events := es } :=
  ⟨{ hs.control with }, hs.table.of_keepsTables (by constructor <;> rfl) hs.table.walk⟩

theorem inv_step (hs : Inv s) (h : step s = .next t) : Inv t := by
  rcases step_cases s with ⟨-, hstep⟩ | ⟨e, rest, -, hstep⟩ <;> rw [hstep] at h
  · exact inv_applyEvent (e := .engine) hs h
  · exact inv_applyEvent (hs.with_events rest) h

/-! ### The model's faults (log 6) -/

/-- Where a command can fault: at entry 511 of NODE, or on an arena that is no tree. -/
theorem exec_fault_cases {f : Fault} (h : exec i s = .fault f) :
    (i = .decData ∧ s.ph = .run ∧ s.decShN ≠ 0 ∧ walkMove s = .noNode) ∨
    (i = .codeGen ∧ s.treeValid = true) ∨
    (∃ k, i = .nodeRead k ∧ s.treeValid = true ∧ k.toNat < s.nodeCount.toNat ∧ nodeAt s k = none) := by
  cases i with
  | decData =>
    simp only [exec, execDecData] at h
    split at h
    · repeat' split at h
      all_goals cases h
    · rename_i hph
      unfold decDataRun at h
      split at h
      · rename_i hsh
        split at h
        · rename_i hmove
          exact .inl ⟨rfl, hph, hsh, hmove⟩
        · cases h
        · split at h <;> cases h
        · cases h
      · repeat' split at h
        all_goals cases h
  | codeGen =>
    by_cases hv : s.treeValid = true
    · exact .inr (.inl ⟨rfl, hv⟩)
    · simp [exec, execCodeGen, hv] at h
  | nodeRead k =>
    simp only [exec, execNodeRead] at h
    split at h
    · cases h
    · rename_i hv
      split at h
      · cases h
      · rename_i hk
        split at h
        · rename_i hnone
          exact .inr (.inr ⟨k, rfl, by simpa using hv, by omega, hnone⟩)
        · cases h
  | _ =>
    simp only [exec, execNop, execReset, execFifoClr, execFtClear, execFtCount, ftCountRun, execFtLoad, execFtGet,
      execFtRead, execTreeBuild, execCodeRead, execEncInit, execEncData, encDataRun, execEncFlush, encFlushRun,
      execDecInit, execDecFinish] at h
    repeat' split at h
    all_goals cases h

/-- From a node of the tree one bit leads to a node of the tree. -/
theorem TreeShape.walkMove_ne_noNode (hs : TreeShape s) (hw : s.decWalk.toNat ≤ s.root.toNat) :
    walkMove s ≠ .noNode := by
  intro hmove
  obtain ⟨g, hg, hnode⟩ := hs.node_cases hw
  rcases walkMove_cases s with ⟨hnone, -⟩ | ⟨e, -, -, -, h⟩ |
    ⟨e, nxt, he, -, hnxt, ⟨hnone, -⟩ | ⟨f, -, -, h⟩ | ⟨f, -, -, h⟩⟩
  · simp [hg] at hnone
  · simp [hmove] at h
  · obtain rfl := Option.some.inj (hg.symm.trans he)
    have hle : nxt.toNat ≤ s.root.toNat := by
      rcases hnode with ⟨-, hl, -⟩ | ⟨-, hl, hleft, hright⟩ <;> rw [hnxt, hl]
      · exact hw
      · cases s.decSh.getLsbD 7
        · exact hleft.le.trans hw
        · exact hright.le.trans hw
    obtain ⟨f, hf, -⟩ := hs.node_cases hle
    simp [hf] at hnone
  · simp [hmove] at h
  · simp [hmove] at h

/-- A root of a valid tree is below 511, the index NODE does not have. -/
theorem TreeShape.root_lt (hs : TreeShape s) : s.root.toNat < 511 := by
  have hroot := hs.root_add_two
  have hfew := nSym_le s
  omega

/-- No command faults in a state of the invariant. -/
theorem exec_next_of_inv (hs : Inv s) (hdec : decode s.cur = .ok i) : ∃ t, exec i s = .next t := by
  cases h : exec i s with
  | next t => exact ⟨t, rfl⟩
  | refused r => exact absurd h (exec_not_refused i s r)
  | fault f =>
    rcases exec_fault_cases h with ⟨rfl, hph, -, hmove⟩ | ⟨rfl, hv⟩ | ⟨k, rfl, hv, hk, hnone⟩
    · have hm := (hs.control.decData_mode hph hdec).1
      have hv := hs.control.decNeedsTree hm
      exact absurd hmove ((hs.table.tree hv).walkMove_ne_noNode (hs.table.walk_le hv hm))
    · obtain ⟨ps, -, hexec⟩ := (hs.table.tree hv).execCodeGen_eq hv
      exact absurd (hexec.symm.trans h) nofun
    · have hshape := hs.table.tree hv
      have hlt := hshape.root_lt
      have hle := hshape.lt_nodeCount_iff.mp hk
      exact absurd ((nodeAt_eq_none_iff s k).mp hnone) (by omega)

/-- The command of a RUN phase is a streaming one (R91). -/
theorem ControlInv.streaming_of_run (hs : ControlInv s) (hph : s.ph = .run) :
    ∃ i, decode s.cur = .ok i ∧ streaming i = true := by
  have hrun := hs.runPhase hph
  unfold RunPhaseOk at hrun
  split at hrun
  case h_5 => exact hrun.elim
  all_goals exact ⟨_, by assumption, rfl⟩

/-- The engine never stops in a state of the invariant (R62, R90). -/
theorem engineStep_next_of_inv (hs : Inv s) : ∃ t, engineStep s = .next t := by
  cases hbusy : s.busy with
  | false => exact ⟨s, engineStep_of_idle hbusy⟩
  | true =>
    cases hph : s.ph with
    | run =>
      obtain ⟨i, hdec, hi⟩ := hs.control.streaming_of_run hph
      rw [engineStep_eq_exec (ne_reset_of_streaming hi) hdec hbusy (.inr ⟨hph, hi⟩)]
      exact exec_next_of_inv hs hdec
    | start =>
      cases hdec : decode s.cur with
      | error e => exact ⟨raiseError .badCmd s.cur s, by simp [engineStep, hbusy, hph, startStep, hdec]⟩
      | ok i =>
        by_cases hne : i = .reset
        · subst hne
          exact ⟨raiseError .badCmd s.cur s, by simp [engineStep, hbusy, hph, startStep, hdec]⟩
        · rw [engineStep_eq_exec hne hdec hbusy (.inl hph)]
          exact exec_next_of_inv hs hdec

/-- Under a node that is its own left child no depth is enough. -/
theorem leafPaths_of_left_self {r : NodeIdx} {e : NodeEntry} (he : nodeAt s r = some e) (hl : e.leaf = false)
    (hself : e.left = r) (k : Nat) (p : List Bool) : leafPaths s.node k r p = none := by
  induction k generalizing p with
  | zero => rfl
  | succ k ih =>
    rw [nodeAt] at he
    simp [leafPaths, he, hl, hself, ih]

end

end Sys2Proof.Machine
end

section
/-! PROOFS. The invariant of every reachable state, that no step stops under it, where the model's faults stand, and
what its engine steps keep (spec/10_state.md, spec/42_tree_code.md). -/

namespace Sys2Proof.Proofs

open Sys2Proof.Machine

/-- Settles O50: the machine after reset is the reset of a machine with depths of 16. -/
theorem resetMeetsTheInvariant : Obligations.ResetMeetsTheInvariant := by
  unfold Obligations.ResetMeetsTheInvariant
  have hcfg : State.reset.cfg.Valid := by decide
  exact inv_resetState hcfg

/-- Settles O52: the control part by O51's lemma; of the tables, TREE_BUILD gives the tree its shape, CODE_GEN the codes
their widths, and a bit moves the walk to an internal node. -/
theorem everyStepKeepsTheInvariant : Obligations.EveryStepKeepsTheInvariant := by
  unfold Obligations.EveryStepKeepsTheInvariant
  exact fun s t => inv_step

/-- Settles O53: only the engine can stop, and each of its faults needs a node that a tree of the invariant's shape
has. -/
theorem noStepStopsUnderTheInvariant : Obligations.NoStepStopsUnderTheInvariant := by
  unfold Obligations.NoStepStopsUnderTheInvariant
  intro s hs
  have hnext (e : Event) (es : List Event) : ∃ t, applyEvent e { s with events := es } = .next t := by
    by_cases he : e = .engine
    · subst he
      exact engineStep_next_of_inv (hs.with_events es)
    · exact applyEvent_next_of_ne_engine e _ he
  obtain ⟨t, ht⟩ : ∃ t, step s = .next t := by
    rcases step_cases s with ⟨-, hstep⟩ | ⟨e, rest, -, hstep⟩ <;> rw [hstep]
    · exact engineStep_next_of_inv hs
    · exact hnext e rest
  exact ⟨t, ht, inv_step hs ht⟩

/-- Settles O54: each stop by the branch that raises it; a valid root is below 511. -/
theorem stopsOutsideTheInvariant : Obligations.StopsOutsideTheInvariant := by
  unfold Obligations.StopsOutsideTheInvariant
  refine ⟨fun s hbusy hph hnot => ?_, fun s hph hsh hw => ?_, fun s hv hroot => ?_, fun s e hv he hl hself => ?_,
    fun s hs => ?_⟩
  · cases hdec : decode s.cur with
    | error e => simp [engineStep, hbusy, hph, runStep, hdec]
    | ok i => simp [engineStep, hbusy, hph, runStep, hdec, hnot i hdec]
  · have hnone : nodeAt s s.decWalk = none := (nodeAt_eq_none_iff s _).mpr (by rw [hw]; rfl)
    have hmove : walkMove s = .noNode := by simp [walkMove, hnone]
    refine (execDecData_of_run hph).trans ?_
    rw [decDataRun, if_pos hsh, hmove]
  · have hnone : nodeAt s s.root = none := (nodeAt_eq_none_iff s _).mpr (by rw [hroot]; rfl)
    simp [exec, execCodeGen, hv, hnone]
  · simp [exec, execCodeGen, hv, he, codePaths, hl, leafPaths_of_left_self he hl hself]
  · cases hv : s.treeValid with
    | false => exact .inr rfl
    | true =>
      have hlt := (hs.table.tree hv).root_lt
      exact .inl fun h => by rw [h] at hlt; exact absurd hlt (by decide)

/-- Settles O56: a change of the table leaves no tree valid, and a new tree no codes. -/
theorem noStaleTreeOrCodes : Obligations.NoStaleTreeOrCodes := by
  unfold Obligations.NoStaleTreeOrCodes
  intro s t hs h
  cases engineStep_tables hs h with
  | keeps tables walk => exact ⟨fun _ => tables.ft, fun _ => ⟨tables.node, tables.root, tables.nodeCount⟩⟩
  | invalidates tree codes mode absent =>
    exact ⟨fun hv => absurd (tree.symm.trans hv) nofun, fun hv => absurd (codes.symm.trans hv) nofun⟩
  | builds nonempty tree codes mode => exact ⟨fun _ => tree.table, fun hv => absurd (codes.symm.trans hv) nofun⟩
  | generates treeBefore generated ft node root nodeCount mode => exact ⟨fun _ => ft, fun _ => ⟨node, root, nodeCount⟩⟩

end Sys2Proof.Proofs
end

section
/-! SUPPORT. What an engine step does to the two FIFOs and to DEC.rem (R55 point 6, R170, R171). -/

namespace Sys2Proof.Machine

/-- A step of command `i` takes bytes from the front of IN only and, FIFO_CLR aside, adds them at the back of OUT;
DEC.rem is set by DEC_INIT and counted down by a byte that DEC_DATA loads. -/
structure QueueStep (i : Instr) (s t : State) : Prop where
  inq : t.inq <:+ s.inq
  outq : (∀ a b, i ≠ .fifoClr a b) → s.outq <+: t.outq
  decRem : t.decRem = s.decRem ∨ (∃ p, i = .decInit p) ∨
    (i = .decData ∧ s.ph = .run ∧ s.cnt ≠ 0 ∧ t.decRem = s.decRem - 1)

section
variable {i : Instr} {s t : State}

theorem QueueStep.of_same (hin : t.inq = s.inq) (hout : t.outq = s.outq) (hrem : t.decRem = s.decRem) :
    QueueStep i s t where
  inq := hin ▸ List.suffix_rfl
  outq := fun _ => hout ▸ List.prefix_rfl
  decRem := .inl hrem

/-- One byte is taken from IN. -/
theorem QueueStep.of_take {b : Byte} (hin : s.inq = b :: t.inq) (hout : t.outq = s.outq) (hrem : t.decRem = s.decRem) :
    QueueStep i s t where
  inq := hin ▸ List.suffix_cons b t.inq
  outq := fun _ => hout ▸ List.prefix_rfl
  decRem := .inl hrem

/-- One byte is pushed to OUT. -/
theorem QueueStep.of_push {b : Byte} (hin : t.inq = s.inq) (hout : t.outq = s.outq ++ [b])
    (hrem : t.decRem = s.decRem) :
    QueueStep i s t where
  inq := hin ▸ List.suffix_rfl
  outq := fun _ => hout ▸ List.prefix_append ..
  decRem := .inl hrem

theorem ftCountRun_queues (h : ftCountRun s = .next t) : QueueStep .ftCount s t := by
  rcases ftCountRun_cases h with ⟨-, rfl⟩ | ⟨-, -, rfl⟩ | ⟨b, rest, -, -, -, rfl⟩ | ⟨b, rest, -, hinq, -, rfl⟩
  case inr.inr.inr => exact .of_take hinq rfl rfl
  all_goals exact .of_same rfl rfl rfl

theorem encDataRun_queues (h : encDataRun s = .next t) : QueueStep .encData s t := by
  rcases encDataRun_cases h with ⟨-, -, rfl⟩ | ⟨-, -, rfl⟩ | ⟨-, -, rfl⟩ | ⟨-, -, -, -, rfl⟩ |
    ⟨b, rest, -, -, -, -, -, rfl⟩ | ⟨b, rest, -, -, -, hinq, -, rfl⟩ | ⟨-, -, -, rfl⟩
  case inr.inl => exact .of_push rfl rfl rfl
  case inr.inr.inr.inr.inr.inl => exact .of_take hinq rfl rfl
  all_goals exact .of_same rfl rfl rfl

theorem encFlushRun_queues (h : encFlushRun s = .next t) : QueueStep .encFlush s t := by
  rcases encFlushRun_cases h with ⟨-, -, rfl⟩ | ⟨-, -, rfl⟩ | ⟨-, rfl⟩
  case inr.inl => exact .of_push rfl rfl rfl
  all_goals exact .of_same rfl rfl rfl

theorem decDataRun_queues (hph : s.ph = .run) (h : decDataRun s = .next t) : QueueStep .decData s t := by
  rcases decDataRun_cases h with ⟨-, -, rfl⟩ | ⟨x, -, -, -, rfl⟩ | ⟨x, -, -, -, rfl⟩ | ⟨nxt, -, -, rfl⟩ |
    ⟨-, -, -, rfl⟩ | ⟨b, rest, -, hcnt, hinq, rfl⟩ | ⟨-, -, rfl⟩
  case inr.inr.inl => exact .of_push rfl rfl rfl
  case inr.inr.inr.inr.inr.inl =>
    exact ⟨hinq ▸ List.suffix_cons b rest, fun _ => List.prefix_rfl, .inr (.inr ⟨rfl, hph, hcnt, rfl⟩)⟩
  all_goals exact .of_same rfl rfl rfl

/-- What each command does to the FIFOs and to DEC.rem. -/
theorem exec_queues (hne : i ≠ .reset) (h : exec i s = .next t) : QueueStep i s t := by
  cases i with
  | reset => exact absurd rfl hne
  | nop | ftClear | ftRead =>
    injection h with h
    subst h
    exact .of_same rfl rfl rfl
  | fifoClr a b =>
    injection h with h
    subst h
    refine ⟨?_, fun hne => absurd rfl (hne a b), .inl rfl⟩
    cases a
    · exact List.suffix_rfl
    · exact List.nil_suffix
  | ftCount =>
    rcases execFtCount_cases h with ⟨-, rfl⟩ | ⟨-, h⟩
    · exact .of_same rfl rfl rfl
    · exact ftCountRun_queues h
  | ftLoad x => rcases execFtLoad_cases h with ⟨-, rfl⟩ | ⟨-, rfl⟩ <;> exact .of_same rfl rfl rfl
  | ftGet k => rcases execFtGet_cases h with ⟨-, rfl⟩ | ⟨_, _, -, rfl⟩ <;> exact .of_same rfl rfl rfl
  | treeBuild => rcases execTreeBuild_cases h with ⟨-, rfl⟩ | ⟨-, _, _, -, rfl⟩ <;> exact .of_same rfl rfl rfl
  | codeGen => rcases execCodeGen_cases h with ⟨-, rfl⟩ | ⟨-, _, _, -, -, rfl⟩ <;> exact .of_same rfl rfl rfl
  | nodeRead k =>
    rcases execNodeRead_cases h with ⟨-, rfl⟩ | ⟨-, -, rfl⟩ | ⟨-, -, _, -, rfl⟩ <;> exact .of_same rfl rfl rfl
  | codeRead x w => rcases execCodeRead_cases h with ⟨-, rfl⟩ | ⟨-, rfl⟩ <;> exact .of_same rfl rfl rfl
  | encInit => rcases execEncInit_cases h with ⟨-, rfl⟩ | ⟨-, rfl⟩ <;> exact .of_same rfl rfl rfl
  | encData =>
    rcases execEncData_cases h with ⟨-, -, rfl⟩ | ⟨-, -, rfl⟩ | ⟨-, h⟩
    · exact .of_same rfl rfl rfl
    · exact .of_same rfl rfl rfl
    · exact encDataRun_queues h
  | encFlush =>
    rcases execEncFlush_cases h with ⟨-, -, rfl⟩ | ⟨-, -, rfl⟩ | ⟨-, h⟩
    · exact .of_same rfl rfl rfl
    · exact .of_same rfl rfl rfl
    · exact encFlushRun_queues h
  | decInit p =>
    rcases execDecInit_cases h with ⟨-, rfl⟩ | ⟨-, -, rfl⟩ | ⟨-, -, -, rfl⟩ | ⟨-, -, -, rfl⟩
    case inr.inr.inr => exact ⟨List.suffix_rfl, fun _ => List.prefix_rfl, .inr (.inl ⟨p, rfl⟩)⟩
    all_goals exact .of_same rfl rfl rfl
  | decData =>
    rcases execDecData_cases h with ⟨-, -, rfl⟩ | ⟨-, -, -, rfl⟩ | ⟨-, -, -, rfl⟩ | ⟨hph, h⟩
    case inr.inr.inr => exact decDataRun_queues hph h
    all_goals exact .of_same rfl rfl rfl
  | decFinish =>
    rcases execDecFinish_cases h with ⟨-, rfl⟩ | ⟨-, -, rfl⟩ | ⟨-, -, -, rfl⟩ | ⟨-, -, -, -, rfl⟩ <;>
      exact .of_same rfl rfl rfl

/-- An engine step leaves DEC.rem no larger, but for the START step of DEC_INIT: a byte is loaded only while the payload
has one left (R129). -/
theorem engineStep_decRem (hs : ControlInv s) (h : engineStep s = .next t) :
    t.decRem.toNat ≤ s.decRem.toNat ∨ (s.busy = true ∧ s.ph = .start ∧ ∃ p, decode s.cur = .ok (.decInit p)) := by
  have hload (hph : s.ph = .run) (hdec : decode s.cur = .ok .decData) (hcnt : s.cnt ≠ 0) :
      (s.decRem - 1).toNat ≤ s.decRem.toNat := by
    obtain ⟨-, hle⟩ := hs.decData_mode hph hdec
    bv_omega
  rcases engineStep_cases h with ⟨-, rfl⟩ | ⟨-, -, -, rfl⟩ | ⟨i, hbusy, hph, hdec, hne, h⟩ | ⟨i, -, hph, hdec, hi, h⟩
  · exact .inl le_rfl
  · exact .inl le_rfl
  · rcases (exec_queues hne h).decRem with hsame | ⟨p, rfl⟩ | ⟨-, hrun, -⟩
    · exact .inl (by rw [hsame])
    · exact .inr ⟨hbusy, hph, p, hdec⟩
    · simp [hph] at hrun
  · rcases (exec_queues (ne_reset_of_streaming hi) h).decRem with hsame | ⟨p, rfl⟩ | ⟨rfl, -, hcnt, hsub⟩
    · exact .inl (by rw [hsame])
    · cases hi
    · exact .inl (by rw [hsub]; exact hload hph hdec hcnt)

/-- No host write but a reset touches DEC.rem. -/
theorem busWrite_decRem_le (off v : Word) (s : State) : (busWrite off v s).decRem.toNat ≤ s.decRem.toNat := by
  rcases busWrite_cases off v s with h | ⟨-, h⟩ | ⟨-, h⟩ | ⟨-, h⟩ | ⟨-, h⟩ | ⟨-, h⟩ <;> rw [h]
  · rw [writeStatus_eq]
  · rcases writeCmd_cases v s with ⟨-, h⟩ | ⟨-, -, h⟩ | ⟨-, -, -, h⟩ <;> rw [h]
    · exact Nat.zero_le _
    · exact le_rfl
  · cases hfull : inFull s
    · rw [writeDataIn_of_not_full v s hfull]
    · rw [writeDataIn_of_full v s hfull]

theorem busReadState_decRem (off : Word) (s : State) : (busReadState off s).decRem = s.decRem := by
  rcases busReadState_cases off s with h | ⟨-, h⟩ <;> rw [h]

/-- R55 point 6 for any event. -/
theorem applyEvent_decRem {e : Event} (hs : ControlInv s) (h : applyEvent e s = .next t) :
    t.decRem.toNat ≤ s.decRem.toNat ∨
      (e = .engine ∧ s.busy = true ∧ s.ph = .start ∧ ∃ p, decode s.cur = .ok (.decInit p)) := by
  cases e with
  | engine => exact (engineStep_decRem hs h).imp_right fun h => ⟨rfl, h⟩
  | busRead off =>
    injection h with h
    subst h
    exact .inl (congrArg BitVec.toNat (busReadState_decRem off s)).le
  | busWrite off v =>
    injection h with h
    subst h
    exact .inl (busWrite_decRem_le off v s)
  | hwReset =>
    injection h with h
    subst h
    exact .inl (Nat.zero_le _)

end

end Sys2Proof.Machine
end

section
/-! PROOFS. The statements about DEC.rem and the FIFOs over any step
(spec/10_state.md, spec/70_reset_and_hazards.md). -/

namespace Sys2Proof.Proofs

open Sys2Proof.Machine

/-- Settles O55: DEC.rem is counted down by a loaded byte, of which the payload has at least one left. -/
theorem decRemOnlyDecreases : Obligations.DecRemOnlyDecreases := by
  unfold Obligations.DecRemOnlyDecreases
  refine ⟨fun s t e hs h hlt => ?_, fun s t hs hnot h => ?_⟩
  · exact (applyEvent_decRem hs h).resolve_left (Nat.not_le.mpr hlt)
  · rcases step_cases s with ⟨-, hstep⟩ | ⟨e, rest, -, hstep⟩ <;> rw [hstep] at h
    · exact (engineStep_decRem hs h).resolve_right fun ⟨_, _, p, hdec⟩ => hnot p hdec
    · have hs' : ControlInv { s with events := rest } := { hs with }
      exact (applyEvent_decRem hs' h).resolve_right fun ⟨_, _, _, p, hdec⟩ => hnot p hdec

/-- Settles O57, by what the command in CUR does to the FIFOs. -/
theorem engineTakesFromInAndAddsToOut : Obligations.EngineTakesFromInAndAddsToOut := by
  unfold Obligations.EngineTakesFromInAndAddsToOut
  intro s t h
  have hexec {i : Instr} (hdec : decode s.cur = .ok i) (hq : QueueStep i s t) :
      t.inq <:+ s.inq ∧ ((∀ i o, decode s.cur ≠ .ok (.fifoClr i o)) → s.outq <+: t.outq) :=
    ⟨hq.inq, fun hnot => hq.outq fun a b hi => hnot a b (hdec.trans (congrArg _ hi))⟩
  rcases engineStep_cases h with ⟨-, rfl⟩ | ⟨-, -, -, rfl⟩ | ⟨i, -, -, hdec, hne, h⟩ | ⟨i, -, -, hdec, hi, h⟩
  · exact ⟨List.suffix_rfl, fun _ => List.prefix_rfl⟩
  · exact ⟨List.suffix_rfl, fun _ => List.prefix_rfl⟩
  · exact hexec hdec (exec_queues hne h)
  · exact hexec hdec (exec_queues (ne_reset_of_streaming hi) h)

end Sys2Proof.Proofs
end

section
/-! SUPPORT. The codes of CODE_GEN as paths of the tree, and their decoding (R118, R119, R129, R132). -/

namespace Sys2Proof.Machine

section
variable {s t : State} {a b : Byte} {p q rest : List Bool}

/-- A leaf has no child: only the empty path starts there. -/
theorem follow_from_leaf {i j : NodeIdx} {e : NodeEntry} (he : nodeAt s i = some e) (hl : e.leaf = true)
    (h : follow s i p = some j) : p = [] ∧ j = i := by
  cases p with
  | nil => exact ⟨rfl, (Option.some.inj h).symm⟩
  | cons c p => simp [follow_cons_of_leaf he hl] at h

/-- Where a path goes on, its start is an internal node. -/
theorem internal_of_follow_cons {i j : NodeIdx} {c : Bool} (h : follow s i (c :: p) = some j) :
    ∃ e, nodeAt s i = some e ∧ e.leaf = false ∧ follow s (if c then e.right else e.left) p = some j := by
  cases he : nodeAt s i with
  | none => simp [follow, he] at h
  | some e =>
    cases hl : e.leaf with
    | true => simp [follow_cons_of_leaf he hl] at h
    | false => exact ⟨e, rfl, hl, (follow_cons_of_internal he hl).symm.trans h⟩

/-! ### Prefix-freeness (R119) -/

/-- A code path that another one begins with ends at the same leaf. -/
theorem eq_of_codePath_prefix (ha : IsCodePath s a p) (hb : IsCodePath s b q) (h : p <+: q) : a = b := by
  obtain ⟨j, e, he, hl, rfl, hj⟩ := ha
  obtain ⟨k, f, hf, hl', rfl, hk⟩ := hb
  have hsame (hjk : k = j) : e.sym = f.sym := by
    subst hjk
    rw [Option.some.inj (he.symm.trans hf)]
  rcases hj with ⟨hne, hp⟩ | ⟨rfl, -⟩
  · rcases hk with ⟨-, hq⟩ | ⟨rfl, -⟩
    · obtain ⟨r, rfl⟩ := h
      rw [follow_append hp] at hq
      exact hsame (follow_from_leaf he hl hq).2
    · exact absurd (follow_from_leaf hf hl' hp).2 hne
  · rcases hk with ⟨hne, hq⟩ | ⟨rfl, -⟩
    · exact absurd (follow_from_leaf he hl hq).2 hne
    · exact hsame rfl

/-! ### Decoding a code path (R129, R132) -/

/-- From an internal node the walk goes to a child, and emits its symbol when that is a leaf. -/
theorem decodeBits_cons_of_internal {i : NodeIdx} {e f : NodeEntry} {c : Bool} (he : nodeAt s i = some e)
    (hl : e.leaf = false) (hf : nodeAt s (if c then e.right else e.left) = some f) :
    decodeBits s i (c :: rest) =
      if f.leaf then (decodeBits s s.root rest).map fun r => (f.sym :: r.1, r.2)
      else decodeBits s (if c then e.right else e.left) rest := by
  rw [decodeBits, he]
  simp [hl, hf]

/-- A path that ends at a leaf decodes to the leaf's symbol, and decoding goes on from ROOT. -/
theorem decodeBits_of_follow {i j : NodeIdx} {e : NodeEntry} (hp : p ≠ []) (h : follow s i p = some j)
    (he : nodeAt s j = some e) (hl : e.leaf = true) :
    decodeBits s i (p ++ rest) = (decodeBits s s.root rest).map fun r => (e.sym :: r.1, r.2) := by
  induction p generalizing i with
  | nil => exact absurd rfl hp
  | cons c p ih =>
    obtain ⟨g, hg, hinner, hnext⟩ := internal_of_follow_cons h
    rw [List.cons_append]
    cases p with
    | nil =>
      cases hnext
      rw [decodeBits_cons_of_internal hg hinner he, if_pos hl]
      rfl
    | cons d p =>
      obtain ⟨f, hf, hinner', -⟩ := internal_of_follow_cons hnext
      rw [decodeBits_cons_of_internal hg hinner hf, if_neg (by simp [hinner']), ih (by simp) hnext]

/-- Decoding a code path emits its symbol and goes on from ROOT. -/
theorem decodeBits_codePath (h : IsCodePath s b p) :
    decodeBits s s.root (p ++ rest) = (decodeBits s s.root rest).map fun r => (b :: r.1, r.2) := by
  obtain ⟨j, e, he, hl, rfl, ⟨hne, hp⟩ | ⟨rfl, rfl⟩⟩ := h
  · refine decodeBits_of_follow ?_ hp he hl
    rintro rfl
    exact hne (Option.some.inj hp).symm
  · rw [List.singleton_append, decodeBits, he]
    simp [hl, he]

/-- Decoding inverts any code made of code paths (R132). -/
theorem decodeBits_flatMap {code : Byte → List Bool} {bs : List Byte} (h : ∀ b ∈ bs, IsCodePath s b (code b)) :
    decodeBits s s.root (bs.flatMap code) = some (bs, s.root) := by
  induction bs with
  | nil => rfl
  | cons b bs ih =>
    rw [List.flatMap_cons, decodeBits_codePath (h b List.mem_cons_self),
      ih fun c hc => h c (List.mem_cons_of_mem _ hc)]
    rfl

/-! ### The code strings of CODE_GEN (R118) -/

theorem follow_congr (hnode : t.node = s.node) (i : NodeIdx) (p : List Bool) : follow t i p = follow s i p := by
  have hat (i : NodeIdx) : nodeAt t i = nodeAt s i := by rw [nodeAt, nodeAt, hnode]
  induction p generalizing i with
  | nil => rfl
  | cons c p ih => simp only [follow, hat, ih]

theorem IsCodePath.congr (hnode : t.node = s.node) (hroot : t.root = s.root) (h : IsCodePath s b p) :
    IsCodePath t b p := by
  obtain ⟨j, e, he, hl, hb, hj⟩ := h
  refine ⟨j, e, (by rwa [nodeAt, hnode]), hl, hb, ?_⟩
  rwa [follow_congr hnode, hroot]

/-- After CODE_GEN the code string of a symbol is a code path of it, or empty for an absent symbol. -/
theorem codeString_of_codeGen (hv : s.treeValid = true) (hs : TreeShape s) (h : exec .codeGen s = .next t) (b : Byte) :
    ((ftAt s b).present = true ∧ codeString t b ≠ [] ∧ IsCodePath t b (codeString t b)) ∨
    ((ftAt s b).present = false ∧ codeString t b = []) := by
  obtain ⟨-, hcodeGen⟩ := Proofs.codeGenGivesTheTreePaths
  obtain ⟨t', hexec, hframe, hpresent, habsent, -⟩ := (hcodeGen s).2 hv hs
  obtain rfl : t' = t := Host.Outcome.next.inj (hexec.symm.trans h)
  cases hb : (ftAt s b).present with
  | false =>
    refine .inr ⟨rfl, (codeString_eq_nil_iff t' b).mpr ?_⟩
    rw [habsent b hb]
  | true =>
    obtain ⟨p, hp, hpos, -, -, rfl⟩ := hpresent b hb
    have hnode : t'.node = s.node := by rw [hframe]
    have hroot : t'.root = s.root := by rw [hframe]
    exact .inl ⟨rfl, List.ne_nil_of_length_pos hpos, hp.congr hnode hroot⟩

/-- After CODE_GEN a symbol that has a code has a code path. -/
theorem isCodePath_of_codeGen (hv : s.treeValid = true) (hs : TreeShape s) (h : exec .codeGen s = .next t)
    (hb : codeString t b ≠ []) : IsCodePath t b (codeString t b) := by
  rcases codeString_of_codeGen hv hs h b with ⟨-, -, hpath⟩ | ⟨-, hnil⟩
  · exact hpath
  · exact absurd hnil hb

end

end Sys2Proof.Machine
end

section
/-! PROOFS. The statements about the codes of CODE_GEN (spec/42_tree_code.md, spec/44_decode_unpack.md). -/

namespace Sys2Proof.Proofs

open Sys2Proof.Machine

/-- Settles O36: codes are paths to leaves, and a leaf has no child. -/
theorem codesArePrefixFree : Obligations.CodesArePrefixFree := by
  unfold Obligations.CodesArePrefixFree
  intro s t hv hs h
  refine ⟨fun b hb => ?_, fun a b hab ha hb hprefix => ?_⟩
  · rcases codeString_of_codeGen hv hs h b with ⟨-, hne, -⟩ | ⟨habsent, -⟩
    · exact hne
    · simp [hb] at habsent
  · exact hab (eq_of_codePath_prefix (isCodePath_of_codeGen hv hs h ha) (isCodePath_of_codeGen hv hs h hb) hprefix)

/-- Settles O37: decoding a code path emits its symbol and comes back to ROOT. -/
theorem decodingInvertsTheCodes : Obligations.DecodingInvertsTheCodes := by
  unfold Obligations.DecodingInvertsTheCodes
  intro s t bs hv hs h hcodes
  exact decodeBits_flatMap fun b hb =>
    isCodePath_of_codeGen hv hs h (mt (codeString_eq_nil_iff t b).mp (hcodes b hb))

end Sys2Proof.Proofs
end

section
/-! SUPPORT. Runs of engine steps, and what they do to the frequency table and to the packer's bits (R105, R123, R125,
R126). -/

namespace Sys2Proof.Machine

/-! ### Runs of engine steps -/

section
variable {s t : State}

theorem engineTimes_of_idle (k : Nat) (h : s.busy = false) : engineTimes k s = .next s := by
  induction k with
  | zero => rfl
  | succ k ih =>
    rw [engineTimes, engineStep_of_idle h]
    exact ih

theorem engineTimes_succ_of_next {k : Nat} {u : State} (h : engineStep s = .next u) :
    engineTimes (k + 1) s = engineTimes k u := by
  rw [engineTimes, h]

/-- A run that ends has a first step. -/
theorem engineTimes_succ_cases {k : Nat} (h : engineTimes (k + 1) s = .next t) :
    ∃ u, engineStep s = .next u ∧ engineTimes k u = .next t := by
  cases hstep : engineStep s with
  | next u => exact ⟨u, rfl, (engineTimes_succ_of_next hstep).symm.trans h⟩
  | fault f => simp [engineTimes, hstep] at h
  | refused r => simp [engineTimes, hstep] at h

/-- A run from a state where the engine is idle stays there. -/
theorem eq_of_engineTimes_of_idle {k : Nat} (hidle : s.busy = false) (h : engineTimes k s = .next t) : t = s :=
  (Host.Outcome.next.inj ((engineTimes_of_idle k hidle).symm.trans h)).symm

end

/-! ### FT_COUNT over its bytes (R105, R106) -/

section
variable {s : State}

/-- The engine's step in FT_COUNT's RUN phase. -/
theorem engineStep_ftCount (hbusy : s.busy = true) (hph : s.ph = .run) (hcur : s.cur = encode .ftCount) :
    engineStep s = ftCountRun s :=
  (engineStep_of_streaming (i := .ftCount) rfl hcur hbusy hph).trans (execFtCount_of_run hph)

/-- FT_COUNT run over the bytes at the front of IN: one step per byte and one that completes. -/
theorem engineTimes_ftCount {bs rest : List Byte} (hbusy : s.busy = true) (hph : s.ph = .run)
    (hcur : s.cur = encode .ftCount) (hinq : s.inq = bs ++ rest) (hcnt : s.cnt.toNat = bs.length)
    (hroom : ∀ b, (ftAt s b).count.toNat + bs.count b < 2 ^ 32) :
    ∃ t, engineTimes (bs.length + 1) s = .next t ∧
      t = { s with ft := t.ft, inq := rest, cnt := 0, busy := false, done := true, ph := .start } ∧
      ∀ b, (ftAt t b).count.toNat = (ftAt s b).count.toNat + bs.count b ∧
        ((ftAt t b).present = true ↔ (ftAt s b).present = true ∨ b ∈ bs) := by
  induction bs generalizing s with
  | nil =>
    have hcnt : s.cnt = 0 := BitVec.eq_of_toNat_eq hcnt
    have hinq : s.inq = rest := hinq
    have hstep := (engineStep_ftCount hbusy hph hcur).trans (ftCountRun_of_cnt_eq_zero hcnt)
    refine ⟨_, engineTimes_succ_of_next hstep, ?_, fun b => by simp [ftAt]⟩
    rw [← hinq, ← hcnt]
    rfl
  | cons b bs ih =>
    have hb := hroom b
    rw [List.count_cons_self] at hb
    have hcnt0 : s.cnt ≠ 0 := by
      intro h
      simp [h] at hcnt
    have hmax : (ftAt s b).count ≠ 0xFFFFFFFF := by
      intro h
      simp [h] at hb
      omega
    have hadd : ((ftAt s b).count + 1).toNat = (ftAt s b).count.toNat + 1 :=
      BitVec.toNat_add_of_lt (y := 1) (by simp; omega)
    have hstep := (engineStep_ftCount hbusy hph hcur).trans (ftCountRun_of_not_max hcnt0 hinq hmax)
    let u := ftSet b { present := true, count := (ftAt s b).count + 1 } { s with inq := bs ++ rest, cnt := s.cnt - 1 }
    have hentry (c : Byte) : ftAt u c = if c = b then { present := true, count := (ftAt s b).count + 1 }
        else ftAt s c :=
      ftAt_ftSet ..
    have hcount (c : Byte) : (ftAt u c).count.toNat + bs.count c = (ftAt s c).count.toNat + (b :: bs).count c := by
      rw [hentry]
      split
      · rename_i hc
        rw [hc, List.count_cons_self, hadd]
        omega
      · rename_i hc
        rw [List.count_cons_of_ne (Ne.symm hc)]
    have hpresent (c : Byte) : (ftAt u c).present = true ∨ c ∈ bs ↔ (ftAt s c).present = true ∨ c ∈ b :: bs := by
      rw [hentry]
      split
      · rename_i hc
        simp [hc]
      · rename_i hc
        simp [hc]
    have hcnt' : u.cnt.toNat = bs.length := by
      rw [List.length_cons] at hcnt
      change (s.cnt - 1).toNat = bs.length
      bv_omega
    obtain ⟨t, hrun, hframe, htable⟩ := ih (s := u) hbusy hph hcur rfl hcnt' fun c => by rw [hcount]; exact hroom c
    refine ⟨t, (engineTimes_succ_of_next hstep).trans hrun, hframe, fun c => ?_⟩
    obtain ⟨hc, hp⟩ := htable c
    exact ⟨hc.trans (hcount c), hp.trans (hpresent c)⟩

end

/-! ### Bit strings under shifts (R21, R64) -/

section
variable {n m v : Nat}

/-- A bit appended at the right end. -/
theorem bitString_two_mul_add (n v : Nat) (b : Bool) : bitString (n + 1) (2 * v + b.toNat) = bitString n v ++ [b] := by
  have hhalf : (2 * v + b.toNat) / 2 = v := by cases b <;> simp; omega
  induction n with
  | zero => cases b <;> simp [bitString]
  | succ n ih =>
    rw [bitString, ih, Nat.testBit_succ, hhalf]
    rfl

/-- Zero bits appended at the right end. -/
theorem bitString_mul_two_pow (n v k : Nat) : bitString (n + k) (v * 2 ^ k) =
    bitString n v ++ List.replicate k false := by
  induction k with
  | zero => simp
  | succ k ih =>
    have hdouble : v * 2 ^ (k + 1) = 2 * (v * 2 ^ k) + false.toNat := by simp [pow_succ]; ring
    rw [hdouble, ← Nat.add_assoc, bitString_two_mul_add, ih, List.append_assoc, ← List.replicate_succ']

/-- A bit string does not see what a byte or word loses at its left end. -/
theorem bitString_mod_two_pow (h : n ≤ m) : bitString n (v % 2 ^ m) = bitString n v := by
  conv_rhs => rw [← Nat.div_add_mod v (2 ^ m)]
  exact (bitString_two_pow_mul_add h _ (Nat.mod_lt _ (Nat.two_pow_pos m))).symm

end

/-! ### The packer's bits (R123, R125) -/

section
variable {s t : State}

/-- Emitting a full group moves its eight bits to OUT. -/
theorem packerBits_emitGroup (h : s.encAccN = 8) : packerBits (emitGroup s) = packerBits s := by
  have hacc : s.encAccN.val = 8 := congrArg Fin.val h
  simp only [packerBits, emitGroup, pushOut, byteBits_append, byteBits_singleton, hacc, Fin.val_zero, bitString,
    List.append_nil]

/-- Shifting a bit moves it from the code bits to the group. -/
theorem packerBits_shiftBit (hacc : s.encAccN ≠ 8) (hsr : s.encSrN ≠ 0) : packerBits (shiftBit s) = packerBits s := by
  have hlt : s.encAccN.val < 8 := Nat.lt_of_le_of_ne (Nat.lt_succ_iff.mp s.encAccN.isLt) fun h => hacc (Fin.ext h)
  obtain ⟨n, hn⟩ : ∃ n, s.encSrN.toNat = n + 1 := Nat.exists_eq_succ_of_ne_zero fun h => hsr (BitVec.eq_of_toNat_eq h)
  have hn' : (shiftBit s).encSrN.toNat = n := by
    change (s.encSrN - 1).toNat = n
    bv_omega
  have hgroup : bitString (shiftBit s).encAccN.val (shiftBit s).encAcc.toNat =
      bitString s.encAccN.val s.encAcc.toNat ++ [s.encSr.toNat.testBit n] := by
    rw [shiftBit_encAccN hacc, shiftBit_encAcc, hn, Nat.add_sub_cancel, show 256 = 2 ^ 8 from rfl,
      bitString_mod_two_pow (by omega), bitString_two_mul_add]
    rfl
  rw [packerBits, packerBits, hgroup, hn', hn, bitString, List.append_assoc, List.append_assoc, List.append_assoc,
    List.singleton_append]
  rfl

/-- Fetching a code appends it to the bits the packer holds. -/
theorem packerBits_fetch (b : Byte) (rest : List Byte) (c : Word) (hsr : s.encSrN = 0) :
    packerBits { s with inq := rest, encSr := (codeAt s b).bits, encSrN := (codeAt s b).len, cnt := c } =
      packerBits s ++ codeString s b := by
  have hsr : s.encSrN.toNat = 0 := congrArg BitVec.toNat hsr
  simp only [packerBits, codeString, hsr, bitString, List.append_nil]

/-- What a RUN step of ENC_DATA does to the stream (R125): it raises; it completes with nothing left to shift; or it
takes no byte or one from IN and appends its code to the packer's bits. -/
theorem encDataRun_stream (h : encDataRun s = .next t) :
    (t.busy = false ∧ t.err = true) ∨
    (s.encAccN ≠ 8 ∧ s.encSrN = 0 ∧ s.cnt = 0 ∧ t = complete s) ∨
    (∃ bs, s.inq = bs ++ t.inq ∧ s.cnt.toNat = bs.length + t.cnt.toNat ∧
      packerBits t = packerBits s ++ bs.flatMap (codeString s) ∧ t.code = s.code ∧ DataStep s t ∧ t.ph = s.ph) := by
  have hkeep {u : State} (hinq : u.inq = s.inq) (hcnt : u.cnt = s.cnt) (hbits : packerBits u = packerBits s)
      (hcode : u.code = s.code) (hdata : DataStep s u) (hph : u.ph = s.ph) :
      ∃ bs, s.inq = bs ++ u.inq ∧ s.cnt.toNat = bs.length + u.cnt.toNat ∧
        packerBits u = packerBits s ++ bs.flatMap (codeString s) ∧ u.code = s.code ∧ DataStep s u ∧ u.ph = s.ph :=
    ⟨[], by simp [hinq], by simp [hcnt], by simp [hbits], hcode, hdata, hph⟩
  rcases encDataRun_cases h with ⟨-, -, rfl⟩ | ⟨hacc, -, rfl⟩ | ⟨hacc, hsr, rfl⟩ | ⟨-, -, -, -, rfl⟩ |
    ⟨b, rest, -, -, -, -, -, rfl⟩ | ⟨b, rest, -, hsr, hcnt, hinq, -, rfl⟩ | ⟨hacc, hsr, hcnt, rfl⟩
  · exact .inr (.inr (hkeep rfl rfl rfl rfl (.refl _) rfl))
  · exact .inr (.inr (hkeep rfl rfl (packerBits_emitGroup hacc) rfl (by constructor <;> rfl) rfl))
  · exact .inr (.inr (hkeep rfl rfl (packerBits_shiftBit hacc hsr) rfl (by constructor <;> rfl) rfl))
  · exact .inr (.inr (hkeep rfl rfl rfl rfl (.refl _) rfl))
  · exact .inl ⟨rfl, rfl⟩
  · have hdown : s.cnt.toNat = 1 + (s.cnt - 1).toNat := by bv_omega
    refine .inr (.inr ⟨[b], hinq, hdown, ?_, rfl, by constructor <;> rfl, rfl⟩)
    rw [List.flatMap_singleton]
    exact packerBits_fetch b rest _ hsr
  · exact .inr (.inl ⟨hacc, hsr, hcnt, rfl⟩)

/-- R125 over a run of engine steps: from a running ENC_DATA to its successful end. -/
theorem engineTimes_encData {k : Nat} (hbusy : s.busy = true) (hph : s.ph = .run) (hcur : s.cur = encode .encData)
    (h : engineTimes k s = .next t) (hend : t.busy = false) (herr : t.err = false) :
    ∃ bs, s.inq = bs ++ t.inq ∧ bs.length = s.cnt.toNat ∧ packerBits t = packerBits s ++ bs.flatMap (codeString s) ∧
      t.encSrN = 0 ∧ t.encAccN ≠ 8 := by
  induction k generalizing s with
  | zero =>
    obtain rfl := Host.Outcome.next.inj h
    simp [hbusy] at hend
  | succ k ih =>
    obtain ⟨u, hstep, hrun⟩ := engineTimes_succ_cases h
    rw [engineStep_of_streaming (i := .encData) rfl hcur hbusy hph] at hstep
    rcases encDataRun_stream ((execEncData_of_run hph).symm.trans hstep) with
      ⟨hidle, hraised⟩ | ⟨hacc, hsr, hcnt, rfl⟩ | ⟨as, hinq, hcnt, hbits, hcode, hdata, hph'⟩
    · obtain rfl := eq_of_engineTimes_of_idle hidle hrun
      simp [hraised] at herr
    · obtain rfl := eq_of_engineTimes_of_idle rfl hrun
      exact ⟨[], rfl, by simp [hcnt], (List.append_nil _).symm, hsr, hacc⟩
    · obtain ⟨bs, hinq', hlen, hbits', hsr, hacc⟩ :=
        ih (hdata.busy.trans hbusy) (hph'.trans hph) (hdata.cur.trans hcur) hrun
      have hcodes : codeString u = codeString s := by
        funext b
        simp only [codeString, codeAt, hcode]
      refine ⟨as ++ bs, ?_, ?_, ?_, hsr, hacc⟩
      · rw [hinq, hinq', List.append_assoc]
      · rw [List.length_append, hlen, hcnt]
      · rw [hbits', hbits, hcodes, List.append_assoc, List.flatMap_append]

end

end Sys2Proof.Machine
end

section
/-! PROOFS. The statements about whole runs of FT_COUNT and ENC_DATA, and about the padding of ENC_FLUSH
(spec/41_frequency.md, spec/43_encode_pack.md). -/

namespace Sys2Proof.Proofs

open Sys2Proof.Machine

/-- Settles O28, by induction over the bytes. -/
theorem ftCountCountsItsBytes : Obligations.FtCountCountsItsBytes := by
  unfold Obligations.FtCountCountsItsBytes
  exact fun s bs rest => engineTimes_ftCount

/-- Settles O43: an emitted group, a shifted bit and a fetched code each leave the bits in their order. -/
theorem encDataStepKeepsTheBitSequence : Obligations.EncDataStepKeepsTheBitSequence := by
  unfold Obligations.EncDataStepKeepsTheBitSequence
  intro s t hph h herr
  have hcount : s.bitcnt.toNat = (s.bitcnt.toNat + 0) % 2 ^ 64 := (Nat.mod_eq_of_lt s.bitcnt.isLt).symm
  have hstay : s.bitcnt.toNat = (s.bitcnt.toNat + (s.encSrN.toNat - s.encSrN.toNat)) % 2 ^ 64 := by
    rw [Nat.sub_self]
    exact hcount
  rcases encDataRun_cases ((execEncData_of_run hph).symm.trans h) with ⟨-, -, rfl⟩ | ⟨hacc, -, rfl⟩ | ⟨hacc, hsr, rfl⟩ |
    ⟨-, -, -, -, rfl⟩ | ⟨b, rest, -, -, -, -, -, rfl⟩ | ⟨b, rest, -, hsr, -, hinq, hlen, rfl⟩ | ⟨-, -, -, rfl⟩
  · exact ⟨.inl ⟨rfl, rfl⟩, hstay⟩
  · exact ⟨.inl ⟨packerBits_emitGroup hacc, rfl⟩, hstay⟩
  · refine ⟨.inl ⟨packerBits_shiftBit hacc hsr, rfl⟩, ?_⟩
    have hone : s.encSrN.toNat - (shiftBit s).encSrN.toNat = 1 := by
      change s.encSrN.toNat - (s.encSrN - 1).toNat = 1
      bv_omega
    rw [hone]
    exact BitVec.toNat_add s.bitcnt 1
  · exact ⟨.inl ⟨rfl, rfl⟩, hstay⟩
  · exact ⟨.inl ⟨rfl, rfl⟩, hstay⟩
  · refine ⟨.inr ⟨b, hinq, mt (codeString_eq_nil_iff s b).mp hlen, packerBits_fetch b rest _ hsr⟩, ?_⟩
    rw [hsr]
    exact hcount.trans (by simp)
  · exact ⟨.inl ⟨rfl, rfl⟩, hstay⟩

/-- Settles O44, by induction over the engine's steps. -/
theorem encDataPacksTheCodesInOrder : Obligations.EncDataPacksTheCodesInOrder := by
  unfold Obligations.EncDataPacksTheCodesInOrder
  exact fun s t k hbusy hph hcur _ => engineTimes_encData hbusy hph hcur

/-- Settles O45: the invariant ties BITCNT modulo 8 to the partial group, whose shift appends the padding. -/
theorem flushPadsToAByte : Obligations.FlushPadsToAByte := by
  unfold Obligations.FlushPadsToAByte
  intro s hs hph hcur hout
  have hdec : decode s.cur = .ok .encFlush := (decode_eq_ok_iff_of_streaming rfl).mpr hcur
  have hcount := hs.groupCount (hs.encFlush_mode hph hdec)
  have hnot8 : s.encAccN.val ≠ 8 := fun h => hs.noGroup (.inr (by simp [hdec])) (.inl (Fin.ext h))
  have hlt := s.encAccN.isLt
  by_cases hacc : s.encAccN = 0
  · have hzero : s.encAccN.val = 0 := congrArg Fin.val hacc
    refine ⟨_, (execEncFlush_of_run hph).trans (encFlushRun_of_no_group hacc), ?_, ?_⟩
    · rw [hcount, hzero]
      rfl
    · rw [hzero]
      change byteBits s.outq = byteBits s.outq ++ [] ++ List.replicate 0 false
      simp
  · have hpos : s.encAccN.val ≠ 0 := fun h => hacc (Fin.ext h)
    have hpad : (BitVec.ofNat 3 (8 - s.encAccN.val)).toNat = 8 - s.encAccN.val := toNat_ofNat_of_lt (by omega)
    refine ⟨_, (execEncFlush_of_run hph).trans (encFlushRun_of_partial_group hacc hout), ?_, ?_⟩
    · refine hpad.trans ?_
      omega
    · have hgroup : bitString 8 (s.encAcc <<< (8 - s.encAccN.val)).toNat =
          bitString s.encAccN.val s.encAcc.toNat ++ List.replicate (8 - s.encAccN.val) false := by
        rw [← bitString_mul_two_pow, Nat.add_sub_cancel' (by omega), BitVec.toNat_shiftLeft, Nat.shiftLeft_eq,
          bitString_mod_two_pow le_rfl]
      refine (byteBits_append ..).trans ?_
      rw [byteBits_singleton, hgroup, ← List.append_assoc]
      exact congrArg (fun k => _ ++ List.replicate k false) hpad.symm

end Sys2Proof.Proofs
end

section
/-! SUPPORT. DEC_DATA over the payload bits (R129, R131): one bit of the walk against the decoding of a bit string, and
the bits a step leaves to consume. -/

namespace Sys2Proof.Machine

section
variable {s t : State}

/-! ### One bit -/

/-- Decoding a bit string is the walk bit by bit, from any node. -/
theorem decodeBits_cons (s : State) (rest : List Bool) :
    decodeBits s s.decWalk (s.decSh.getLsbD 7 :: rest) =
      match walkMove s with
      | .noNode | .badBit => none
      | .emit x => (decodeBits s s.root rest).map fun r => (x :: r.1, r.2)
      | .move nxt => decodeBits s nxt rest := by
  rw [decodeBits, walkMove]
  cases nodeAt s s.decWalk with
  | none => rfl
  | some e =>
    dsimp only
    split
    · rfl
    · cases nodeAt s (if e.leaf then s.decWalk else if s.decSh.getLsbD 7 then e.right else e.left) with
      | none => rfl
      | some f =>
        dsimp only
        cases f.leaf <;> rfl

theorem decodeBits_congr (hnode : t.node = s.node) (hroot : t.root = s.root) (i : NodeIdx) (bits : List Bool) :
    decodeBits t i bits = decodeBits s i bits := by
  have hat (i : NodeIdx) : nodeAt t i = nodeAt s i := by rw [nodeAt, nodeAt, hnode]
  induction bits generalizing i with
  | nil => rfl
  | cons b bits ih => simp only [decodeBits, hat, hroot, ih]

/-- The bits of a byte shifted left by one: the first is gone. -/
theorem take_bitString_shiftLeft {n : Nat} (hn : n ≤ 7) (b : Byte) :
    (bitString 8 (b <<< 1).toNat).take n = (bitString 7 b.toNat).take n := by
  have hshift : bitString 8 (b <<< 1).toNat = bitString 7 b.toNat ++ [false] := by
    rw [BitVec.toNat_shiftLeft, Nat.shiftLeft_eq, bitString_mod_two_pow le_rfl]
    exact bitString_mul_two_pow 7 b.toNat 1
  rw [hshift, List.take_append_of_le_length (by rwa [bitString_length])]

/-- Consuming a bit takes the first of the pending bits, whatever happens to the walk. -/
theorem pendingBits_consumeBit (hsh : s.decShN ≠ 0) :
    pendingBits s = s.decSh.getLsbD 7 :: pendingBits (consumeBit s) := by
  have hdown : (consumeBit s).decShN.val = s.decShN.val - 1 := Fin.val_sub_one_of_ne_zero hsh
  have hlt := s.decShN.isLt
  obtain ⟨n, hn⟩ : ∃ n, s.decShN.val = n + 1 := Nat.exists_eq_succ_of_ne_zero fun h => hsh (Fin.ext h)
  rw [hn, Nat.add_sub_cancel] at hdown
  rw [pendingBits, pendingBits, hdown, hn, bitString, List.take_succ_cons, List.cons_append,
    ← take_bitString_shiftLeft (by omega)]
  rfl

/-- Loading a byte keeps the pending bits: the payload's last byte is trimmed (R129, R131). -/
theorem pendingBits_load {b : Byte} {rest : List Byte} (hsh : s.decShN = 0) (hcnt : s.cnt ≠ 0)
    (hrem : s.cnt.toNat ≤ s.decRem.toNat) (hinq : s.inq = b :: rest) :
    pendingBits { s with
      inq := rest, cnt := s.cnt - 1, decRem := s.decRem - 1, decSh := b
      decShN := payloadBits (s.decRem - 1) s.pad } = pendingBits s := by
  obtain ⟨n, hn⟩ : ∃ n, s.cnt.toNat = n + 1 := Nat.exists_eq_succ_of_ne_zero fun h => hcnt (BitVec.eq_of_toNat_eq h)
  have hcnt' : (s.cnt - 1).toNat = n := by bv_omega
  have hrem' : (s.decRem - 1).toNat = s.decRem.toNat - 1 := by bv_omega
  have hone : s.decRem = 1 ↔ s.decRem.toNat = 1 := by bv_omega
  have hsh : s.decShN.val = 0 := congrArg Fin.val hsh
  simp only [pendingBits, hsh, hn, hinq, payloadString, hcnt', hrem', payloadBits_sub_one, hone, List.take_zero,
    List.nil_append]
  split
  · rfl
  · rw [List.take_of_length_le (bitString_length ..).le]

/-! ### One step -/

/-- What a running DEC_DATA has done between `s` and `t`: it has emitted `syms` for the bits it consumed, and
the payload left past its own bytes is the same. -/
structure DecodeStep (s t : State) (syms : List Byte) : Prop where
  data : DataStep s t
  ph : t.ph = s.ph
  node : t.node = s.node
  root : t.root = s.root
  bits : ∀ r, decodeBits s t.decWalk (pendingBits t) = some r →
    decodeBits s s.decWalk (pendingBits s) = some (syms ++ r.1, r.2)
  outq : t.outq = s.outq ++ syms
  symcnt : t.symcnt = s.symcnt + BitVec.ofNat 32 syms.length
  rem : t.decRem.toNat - t.cnt.toNat = s.decRem.toNat - s.cnt.toNat
  bound : t.cnt.toNat ≤ t.decRem.toNat

theorem DecodeStep.refl (hrem : s.cnt.toNat ≤ s.decRem.toNat) : DecodeStep s s [] where
  data := .refl s
  ph := rfl
  node := rfl
  root := rfl
  bits := fun _ h => h
  outq := (List.append_nil _).symm
  symcnt := (BitVec.add_zero _).symm
  rem := rfl
  bound := hrem

/-- What a RUN step of DEC_DATA does (R131): it raises, or completes with no bit left, or goes on decoding. -/
theorem decDataRun_stream (hrem : s.cnt.toNat ≤ s.decRem.toNat) (h : decDataRun s = .next t) :
    (t.busy = false ∧ t.err = true) ∨ (s.decShN = 0 ∧ s.cnt = 0 ∧ t = complete s) ∨ (∃ syms, DecodeStep s t syms) := by
  rcases decDataRun_cases h with ⟨-, -, rfl⟩ | ⟨x, -, -, -, rfl⟩ | ⟨x, hsh, hmove, -, rfl⟩ | ⟨nxt, hsh, hmove, rfl⟩ |
    ⟨-, -, -, rfl⟩ | ⟨b, rest, hsh, hcnt, hinq, rfl⟩ | ⟨hsh, hcnt, rfl⟩
  · exact .inl ⟨rfl, rfl⟩
  · exact .inr (.inr ⟨[], .refl hrem⟩)
  · refine .inr (.inr ⟨[x], ⟨by constructor <;> rfl, rfl, rfl, rfl, fun r hr => ?_, rfl, rfl, rfl, hrem⟩⟩)
    rw [pendingBits_consumeBit hsh, decodeBits_cons, hmove]
    exact congrArg (Option.map _) hr
  · refine .inr (.inr ⟨[], ⟨by constructor <;> rfl, rfl, rfl, rfl, fun r hr => ?_, (List.append_nil _).symm,
      (BitVec.add_zero _).symm, rfl, hrem⟩⟩)
    rw [pendingBits_consumeBit hsh, decodeBits_cons, hmove]
    exact hr
  · exact .inr (.inr ⟨[], .refl hrem⟩)
  · have hrem' : (s.decRem - 1).toNat - (s.cnt - 1).toNat = s.decRem.toNat - s.cnt.toNat := by bv_omega
    have hbound : (s.cnt - 1).toNat ≤ (s.decRem - 1).toNat := by bv_omega
    refine .inr (.inr ⟨[], ⟨by constructor <;> rfl, rfl, rfl, rfl, fun r hr => ?_, (List.append_nil _).symm,
      (BitVec.add_zero _).symm, hrem', hbound⟩⟩)
    rw [pendingBits_load hsh hcnt hrem hinq] at hr
    exact hr
  · exact .inr (.inl ⟨hsh, hcnt, rfl⟩)

/-- R131 over a run of engine steps: from a running DEC_DATA to its successful end. -/
theorem engineTimes_decData {k : Nat} (hbusy : s.busy = true) (hph : s.ph = .run) (hcur : s.cur = encode .decData)
    (hrem : s.cnt.toNat ≤ s.decRem.toNat) (h : engineTimes k s = .next t) (hend : t.busy = false)
    (herr : t.err = false) :
    ∃ syms, decodeBits s s.decWalk (pendingBits s) = some (syms, t.decWalk) ∧ t.outq = s.outq ++ syms ∧
      t.symcnt = s.symcnt + BitVec.ofNat 32 syms.length ∧ t.decRem.toNat = s.decRem.toNat - s.cnt.toNat ∧
      t.decShN = 0 := by
  induction k generalizing s with
  | zero =>
    obtain rfl := Host.Outcome.next.inj h
    simp [hbusy] at hend
  | succ k ih =>
    obtain ⟨u, hstep, hrun⟩ := engineTimes_succ_cases h
    rw [engineStep_of_streaming (i := .decData) rfl hcur hbusy hph] at hstep
    rcases decDataRun_stream hrem ((execDecData_of_run hph).symm.trans hstep) with
      ⟨hidle, hraised⟩ | ⟨hsh, hcnt, rfl⟩ | ⟨syms, hd⟩
    · obtain rfl := eq_of_engineTimes_of_idle hidle hrun
      simp [hraised] at herr
    · obtain rfl := eq_of_engineTimes_of_idle rfl hrun
      have hnone : pendingBits s = [] := by simp [pendingBits, hsh, hcnt, payloadString]
      exact ⟨[], by rw [hnone]; rfl, (List.append_nil _).symm, (BitVec.add_zero _).symm, by simp [hcnt], hsh⟩
    · obtain ⟨syms', hbits, hout, hsym, hrem', hsh⟩ := ih (hd.data.busy.trans hbusy) (hd.ph.trans hph)
        (hd.data.cur.trans hcur) hd.bound hrun
      rw [decodeBits_congr hd.node hd.root] at hbits
      refine ⟨syms ++ syms', hd.bits _ hbits, ?_, ?_, hrem'.trans hd.rem, hsh⟩
      · rw [hout, hd.outq, List.append_assoc]
      · rw [hsym, hd.symcnt, List.length_append, BitVec.ofNat_add, BitVec.add_assoc]

end

end Sys2Proof.Machine
end

section
/-! PROOFS. The statement about a whole DEC_DATA (spec/44_decode_unpack.md). -/

namespace Sys2Proof.Proofs

open Sys2Proof.Machine

/-- Settles O49, by induction over the engine's steps; the invariant bounds the bytes to consume by the payload. -/
theorem decDataDecodesThePayloadBits : Obligations.DecDataDecodesThePayloadBits := by
  unfold Obligations.DecDataDecodesThePayloadBits
  intro s t k hs hbusy hph hcur _ h hend herr
  have hdec : decode s.cur = .ok .decData := (decode_eq_ok_iff_of_streaming rfl).mpr hcur
  obtain ⟨-, hrem⟩ := hs.control.decData_mode hph hdec
  exact engineTimes_decData hbusy hph hcur hrem h hend herr

end Sys2Proof.Proofs
end

section
/-! SUPPORT. The container (spec/45_container.md R135, R143, R145): little-endian integers, and reading a field out of a
byte list by the bytes before it. -/

namespace Sys2Proof.Machine

@[simp] theorem length_leBytes (n v : Nat) : (leBytes n v).length = n := by
  induction n generalizing v with
  | zero => rfl
  | succ n ih => rw [leBytes, List.length_cons, ih]

/-- The little-endian bytes of a number that fits them are read back (R67). -/
theorem leValue_leBytes {n v : Nat} (h : v < 256 ^ n) : leValue (leBytes n v) = v := by
  induction n generalizing v with
  | zero =>
    rw [pow_zero] at h
    exact (Nat.lt_one_iff.mp h).symm
  | succ n ih =>
    have hlt : v / 256 < 256 ^ n := Nat.div_lt_of_lt_mul (by rwa [pow_succ'] at h)
    rw [leBytes, leValue, ih hlt, BitVec.toNat_ofNat]
    omega

/-- A field is read by its place: the bytes before it and its length. -/
theorem memRead_append (a b c : List Byte) : memRead (a ++ b ++ c) a.length b.length = leValue b := by
  rw [memRead, List.append_assoc, List.drop_left, List.take_left]

/-- An integer field (R67). -/
theorem memRead_leBytes {a c : List Byte} {k n v : Nat} (hk : a.length = k) (hv : v < 256 ^ n) :
    memRead (a ++ leBytes n v ++ c) k n = v := by
  have h := memRead_append a (leBytes n v) c
  rwa [hk, length_leBytes, leValue_leBytes hv] at h

/-- A one-byte field. -/
theorem memRead_byte {a c : List Byte} {k : Nat} (b : Byte) (hk : a.length = k) :
    memRead (a ++ [b] ++ c) k 1 = b.toNat := by
  have h := memRead_append a [b] c
  rw [hk] at h
  exact h

/-! ### The container as written (R135, R143) -/

/-- The header: padding and table size. -/
def header (pad n : Nat) : List Byte := leBytes 4 pad ++ leBytes 4 n

/-- The bytes of the table's entries. -/
def entryBytes (es : List (Byte × Word)) : List Byte := es.flatMap fun e => e.1 :: leBytes 4 e.2.toNat

theorem serialize_eq (pad n : Nat) (es : List (Byte × Word)) (payload : List Byte) :
    serialize pad n es payload = header pad n ++ entryBytes es ++ payload := rfl

theorem length_header (pad n : Nat) : (header pad n).length = 8 := by simp [header]

theorem length_entryBytes (es : List (Byte × Word)) : (entryBytes es).length = 5 * es.length := by
  induction es with
  | nil => rfl
  | cons e es ih =>
    rw [entryBytes, List.flatMap_cons, List.length_append, ← entryBytes, ih]
    simp
    omega

theorem length_serialize (pad n : Nat) (es : List (Byte × Word)) (payload : List Byte) :
    (serialize pad n es payload).length = 8 + 5 * es.length + payload.length := by
  rw [serialize_eq, List.length_append, List.length_append, length_header, length_entryBytes]

section
variable {pad n : Nat} {es : List (Byte × Word)} {payload : List Byte}

theorem memRead_serialize_pad (h : pad < 256 ^ 4) : memRead (serialize pad n es payload) 0 4 = pad := by
  have hread := memRead_leBytes (a := []) (c := leBytes 4 n ++ entryBytes es ++ payload) rfl h
  simpa [serialize_eq, header] using hread

theorem memRead_serialize_n (h : n < 256 ^ 4) : memRead (serialize pad n es payload) 4 4 = n := by
  have hread := memRead_leBytes (a := leBytes 4 pad) (c := entryBytes es ++ payload) (length_leBytes ..) h
  simpa [serialize_eq, header] using hread

/-- Entry `k` stands behind the header and the `k` entries before it. -/
theorem entryAt_serialize (k : Nat) (h : k < es.length) : entryAt (serialize pad n es payload) k = es[k] := by
  have hsplit : es = es.take k ++ es[k] :: es.drop (k + 1) := by simp
  have hentries : entryBytes es =
      entryBytes (es.take k) ++ es[k].1 :: leBytes 4 es[k].2.toNat ++ entryBytes (es.drop (k + 1)) := by
    refine (congrArg entryBytes hsplit).trans ?_
    simp only [entryBytes, List.flatMap_append, List.flatMap_cons, List.append_assoc]
  have hbytes : serialize pad n es payload = (header pad n ++ entryBytes (es.take k)) ++ [es[k].1] ++
      (leBytes 4 es[k].2.toNat ++ (entryBytes (es.drop (k + 1)) ++ payload)) := by
    rw [serialize_eq, hentries]
    simp
  have hplace : (header pad n ++ entryBytes (es.take k)).length = 8 + 5 * k := by
    rw [List.length_append, length_header, length_entryBytes, List.length_take, Nat.min_eq_left h.le]
  have hsym : memRead (serialize pad n es payload) (8 + 5 * k) 1 = es[k].1.toNat := by
    rw [hbytes]
    exact memRead_byte _ hplace
  have hcount : memRead (serialize pad n es payload) (9 + 5 * k) 4 = es[k].2.toNat := by
    rw [hbytes, ← List.append_assoc]
    exact memRead_leBytes (by rw [List.length_append, hplace, List.length_singleton]; omega) es[k].2.isLt
  rw [entryAt, hsym, hcount, BitVec.ofNat_toNat, BitVec.ofNat_toNat, BitVec.setWidth_eq, BitVec.setWidth_eq]

theorem payloadOf_serialize : payloadOf (serialize pad n es payload) es.length = payload := by
  rw [payloadOf, serialize_eq]
  exact List.drop_left' (by rw [List.length_append, length_header, length_entryBytes])

end

/-! ### Checking a container (R145) -/

section
variable (c : List Byte)

/-- R145: the header is in range. -/
abbrev HeaderOk : Prop := 8 ≤ c.length ∧ memRead c 0 4 ≤ 7 ∧ 1 ≤ memRead c 4 4 ∧ memRead c 4 4 ≤ 256

/-- The outcomes of `deserialize`: a bad header or no payload, a payload that is too large, or what it finds. -/
theorem deserialize_cases :
    ((¬ HeaderOk c ∨ c.length ≤ 8 + 5 * memRead c 4 4) ∧ deserialize c = .error .corruptContainer) ∨
    (HeaderOk c ∧ 2 ^ 32 - 1 < c.length - 8 - 5 * memRead c 4 4 ∧ deserialize c = .error .inputTooLarge) ∨
    (HeaderOk c ∧ 8 + 5 * memRead c 4 4 < c.length ∧ c.length - 8 - 5 * memRead c 4 4 ≤ 2 ^ 32 - 1 ∧
      deserialize c = .ok { pad := memRead c 0 4, n := memRead c 4 4, p := c.length - 8 - 5 * memRead c 4 4 }) := by
  unfold deserialize HeaderOk
  generalize memRead c 0 4 = pad
  generalize memRead c 4 4 = n
  dsimp only
  split
  · exact .inl ⟨.inl (by omega), rfl⟩
  split
  · exact .inl ⟨.inl (by omega), rfl⟩
  split
  · exact .inl ⟨.inl (by omega), rfl⟩
  split
  · exact .inl ⟨.inr (by omega), rfl⟩
  split
  · exact .inl ⟨.inr (by omega), rfl⟩
  split
  · exact .inr (.inl ⟨by omega, by omega, rfl⟩)
  · exact .inr (.inr ⟨by omega, by omega, by omega, rfl⟩)

variable {c}

/-- R145: which buffers are accepted, and what is found in them. -/
theorem deserialize_eq_ok_iff {l : Layout} : deserialize c = .ok l ↔
    8 ≤ c.length ∧ l.pad = memRead c 0 4 ∧ l.n = memRead c 4 4 ∧ l.pad ≤ 7 ∧ 1 ≤ l.n ∧ l.n ≤ 256 ∧
    c.length = 8 + 5 * l.n + l.p ∧ 1 ≤ l.p ∧ l.p ≤ 2 ^ 32 - 1 := by
  obtain ⟨pad, n, p⟩ := l
  rcases deserialize_cases c with ⟨hbad, h⟩ | ⟨hok, hbig, h⟩ | ⟨hok, hlong, hsmall, h⟩ <;> rw [h]
  · refine iff_of_false nofun ?_
    simp only [HeaderOk] at hbad
    rintro ⟨hlen, rfl, rfl, hrest⟩
    dsimp only at hrest
    omega
  · refine iff_of_false nofun ?_
    rintro ⟨hlen, rfl, rfl, hrest⟩
    dsimp only at hrest
    omega
  · simp only [Except.ok.injEq, Layout.mk.injEq]
    constructor
    · rintro ⟨rfl, rfl, rfl⟩
      omega
    · rintro ⟨-, rfl, rfl, -, -, -, hlen, -, -⟩
      omega

/-- R139, R145: which buffers are too large. -/
theorem deserialize_eq_tooLarge_iff : deserialize c = .error .inputTooLarge ↔
    HeaderOk c ∧ 2 ^ 32 - 1 < c.length - 8 - 5 * memRead c 4 4 := by
  rcases deserialize_cases c with ⟨hbad, h⟩ | ⟨hok, hbig, h⟩ | ⟨hok, hlong, hsmall, h⟩ <;> rw [h]
  · exact iff_of_false nofun fun ⟨hok, hbig⟩ => hbad.elim (fun hnot => hnot hok) fun hshort => by omega
  · exact iff_of_true rfl ⟨hok, hbig⟩
  · exact iff_of_false nofun fun ⟨_, hbig⟩ => by omega

end

end Sys2Proof.Machine
end

section
/-! PROOFS. The statements about the container (spec/45_container.md). -/

namespace Sys2Proof.Proofs

open Sys2Proof.Machine

/-- Settles O58: each field is read back by its place, and the checks hold of what was written. -/
theorem containerRoundTrip : Obligations.ContainerRoundTrip := by
  unfold Obligations.ContainerRoundTrip
  intro pad entries payload hpad hpos hfew hpayload hmax c
  have hlen : c.length = 8 + 5 * entries.length + payload.length := length_serialize ..
  refine ⟨hlen, deserialize_eq_ok_iff.mpr ?_, entryAt_serialize, payloadOf_serialize⟩
  have hreadPad : memRead c 0 4 = pad := memRead_serialize_pad (by omega)
  have hreadN : memRead c 4 4 = entries.length := memRead_serialize_n (by omega)
  exact ⟨by omega, hreadPad.symm, hreadN.symm, hpad, hpos, hfew, hlen, hpayload, hmax⟩

/-- Settles O59, by the outcomes of `deserialize`; a call that rejects its argument makes no access. -/
theorem deserializeChecks : Obligations.DeserializeChecks := by
  unfold Obligations.DeserializeChecks
  refine ⟨fun c l => deserialize_eq_ok_iff, fun c => ?_, fun c e h => ?_, fun c e fuel d h => ?_, fun fuel d => ?_⟩
  · rw [deserialize_eq_tooLarge_iff]
    simp only [HeaderOk, and_assoc]
  · rcases deserialize_cases c with ⟨-, hc⟩ | ⟨-, -, hc⟩ | ⟨-, -, -, hc⟩ <;> rw [hc] at h
    · exact .inl (Except.error.inj h).symm
    · exact .inr (Except.error.inj h).symm
    · cases h
  · simp only [decompress, h, runFw_throw]
  · simp only [compress, List.length_nil, if_true, runFw_bind, runFw_throw]

end Sys2Proof.Proofs
end

section
/-! SUPPORT. Firmware calls (spec/45_container.md R138, R140): what a STATUS read shows of the state it leaves, and the
calls that end with the read of `endOfSequence`. -/

namespace Sys2Proof.Machine

/-! ### STATUS as the firmware reads it -/

/-- The value `v` shows the flags of `s`. -/
structure ShowsFlags (v : Word) (s : State) : Prop where
  busy : v.getLsbD 0 = s.busy
  done : v.getLsbD 1 = s.done
  err : v.getLsbD 2 = s.err
  inOvf : v.getLsbD 9 = s.inOvf
  rej : v.getLsbD 10 = s.rej

section
variable {v : Word} {d d' : Driver}

/-- A STATUS read returns the flags of the state it leaves. -/
theorem showsFlags_of_rd (h : runFw (rd .status) d = (.ok v, d')) : ShowsFlags v d'.hpu := by
  obtain ⟨s, -, rfl, rfl⟩ := runFw_rd_cases h
  rw [busReadValue_regOffset, busReadState_regOffset]
  obtain ⟨hbusy, hdone, herr, -, -, -, -, -, -, hovf, hrej, -⟩ := statusWord_bits s
  exact ⟨hbusy, hdone, herr, hovf, hrej⟩

/-- WAIT ends with a STATUS read that shows BUSY = 0 (R87). -/
theorem waitIdle_spec {fuel : Nat} (h : runFw (waitIdle fuel) d = (.ok v, d')) :
    ShowsFlags v d'.hpu ∧ v.getLsbD 0 = false := by
  induction fuel generalizing d with
  | zero => cases h
  | succ fuel ih =>
    obtain ⟨w, d₁, hrd, hnext⟩ := runFw_bind_ok h
    split at hnext
    · exact ih hnext
    · rename_i hbusy
      cases hnext
      exact ⟨showsFlags_of_rd hrd, Bool.eq_false_iff.mpr hbusy⟩

/-- WAIT with its check goes on only after a command that has ended with DONE = 1 and without an error (R140). -/
theorem waitOk_spec {fuel : Nat} {x : Unit} (h : runFw (waitOk fuel) d = (.ok x, d')) :
    d'.hpu.busy = false ∧ d'.hpu.done = true ∧ d'.hpu.err = false := by
  obtain ⟨v, d₁, hwait, hnext⟩ := runFw_bind_ok h
  obtain ⟨hflags, hidle⟩ := waitIdle_spec hwait
  split at hnext
  · obtain ⟨c, d₂, -, hthrow⟩ := runFw_bind_ok hnext
    cases hthrow
  · rename_i herr
    split at hnext
    · rename_i hdone
      cases hnext
      exact ⟨hflags.busy.symm.trans hidle, hflags.done.symm.trans hdone,
        hflags.err.symm.trans (Bool.eq_false_iff.mpr herr)⟩
    · cases hnext

end

/-! ### Calls that end with a clean STATUS -/

/-- The computation ends with a value only in a state with IN_OVF = 0, REJ = 0 and DONE = 1. -/
def EndsClean {α : Type} (m : Fw α) : Prop :=
  ∀ d a d', runFw m d = (.ok a, d') → d'.hpu.inOvf = false ∧ d'.hpu.rej = false ∧ d'.hpu.done = true

section
variable {α β : Type}

theorem EndsClean.bind {m : Fw α} {f : α → Fw β} (h : ∀ a, EndsClean (f a)) : EndsClean (m >>= f) := by
  intro d b d' hrun
  obtain ⟨a, d₁, -, hf⟩ := runFw_bind_ok hrun
  exact h a d₁ b d' hf

/-- What follows without an access changes nothing. -/
theorem EndsClean.bind_pure {m : Fw α} (h : EndsClean m) (f : α → β) : EndsClean (m >>= fun a => pure (f a)) := by
  intro d b d' hrun
  obtain ⟨a, d₁, hm, hpure⟩ := runFw_bind_ok hrun
  cases hpure
  exact h _ _ _ hm

theorem endsClean_throw (e : FwStop) : EndsClean (throw e : Fw α) := by
  intro d a d' hrun
  cases hrun

/-- A check that ends the call with a condition, or lets it go on. -/
theorem EndsClean.check {c : Prop} [Decidable c] {e : FwStop} {f : PUnit → Fw α} (h : EndsClean (f ⟨⟩)) :
    EndsClean (if c then (throw e >>= f) else f ⟨⟩) := by
  split
  · intro d a d' hrun
    obtain ⟨x, d₁, hthrow, -⟩ := runFw_bind_ok hrun
    cases hthrow
  · exact h

theorem endsClean_endOfSequence : EndsClean endOfSequence := by
  intro d x d' hrun
  obtain ⟨v, d₁, hrd, hnext⟩ := runFw_bind_ok hrun
  have hflags := showsFlags_of_rd hrd
  split at hnext
  · cases hnext
  · rename_i hclean
    cases hnext
    rw [hflags.inOvf, hflags.rej, hflags.done] at hclean
    simpa [and_assoc] using hclean

theorem endsClean_compress (fuel : Nat) (input : List Byte) : EndsClean (compress fuel input) := by
  unfold compress
  refine .check (.check ?_)
  -- the commands from FIFO_CLR to the flush, each with its WAIT
  iterate 19 refine .bind fun _ => ?_
  refine .check ?_
  -- PAD, TBL_SIZE and the table's entries
  iterate 3 refine .bind fun _ => ?_
  exact endsClean_endOfSequence.bind_pure _

theorem endsClean_decompress (fuel : Nat) (c : List Byte) : EndsClean (decompress fuel c) := by
  unfold decompress
  split
  · exact endsClean_throw _
  · -- the commands from FIFO_CLR to DEC_FINISH, each with its WAIT
    iterate 14 refine .bind fun _ => ?_
    exact endsClean_endOfSequence.bind_pure _

end

/-! ### Scripts (R87, R103) -/

/-- How a script ends says whether the HPU is busy, and only an ill-formed one is refused. -/
theorem runScript_cases (fuel : Nat) (ls : List ScriptLine) (d : Driver) :
    (Script.wellFormed ls = false ∧ runScript fuel ls d = .illFormed) ∨
    (Script.wellFormed ls = true ∧
      ((∃ d', d'.hpu.busy = false ∧ runScript fuel ls d = .finished d') ∨
       (∃ d', d'.hpu.busy = true ∧ runScript fuel ls d = .unfinished d') ∨
       ∃ e d', runScript fuel ls d = .stopped e d')) := by
  unfold runScript
  split
  · rename_i hwf
    refine .inr ⟨hwf, ?_⟩
    split
    · rename_i d' hrun
      split
      · rename_i hq
        exact .inl ⟨d', by simpa [quiescent] using hq, rfl⟩
      · rename_i hq
        exact .inr (.inl ⟨d', by simpa [quiescent] using hq, rfl⟩)
    · exact .inr (.inr ⟨_, _, rfl⟩)
  · rename_i hwf
    exact .inl ⟨Bool.eq_false_iff.mpr hwf, rfl⟩

end Sys2Proof.Machine
end

section
/-! PROOFS. The statement about firmware calls and scripts (spec/45_container.md, spec/40_engine_control.md). -/

namespace Sys2Proof.Proofs

open Sys2Proof.Machine

/-- Settles O60: a STATUS read shows the flags of the state it leaves, and the calls and scripts end where they read
it or test BUSY. -/
theorem callsGoOnAfterDoneAndScriptsEndQuiescent : Obligations.CallsGoOnAfterDoneAndScriptsEndQuiescent := by
  unfold Obligations.CallsGoOnAfterDoneAndScriptsEndQuiescent
  refine ⟨fun fuel d d' h => ?_, fun d d' => endsClean_endOfSequence d () d',
    fun fuel input c d d' => endsClean_compress fuel input d c d',
    fun fuel c out d d' => endsClean_decompress fuel c d out d', fun fuel ls d d' => ?_⟩
  · obtain ⟨hidle, hdone, herr⟩ := waitOk_spec h
    exact ⟨by simp [endedInSuccess, quiescent, hidle, hdone], herr⟩
  · rcases runScript_cases fuel ls d with ⟨hwf, h⟩ | ⟨hwf, ⟨e, hb, h⟩ | ⟨e, hb, h⟩ | ⟨e, d₁, h⟩⟩ <;> rw [h, hwf]
    · exact ⟨nofun, nofun, iff_of_true rfl rfl⟩
    · exact ⟨fun he => ScriptEnd.finished.inj he ▸ hb, nofun, iff_of_false nofun nofun⟩
    · exact ⟨nofun, fun he => ScriptEnd.unfinished.inj he ▸ hb, iff_of_false nofun nofun⟩
    · exact ⟨nofun, nofun, iff_of_false nofun nofun⟩

end Sys2Proof.Proofs
end

section
/-! SUPPORT. What an invalid tree or code table holds cannot be observed (R164): a step beside the same step with other
contents of NODE and CODE. -/

namespace Sys2Proof.Machine

/-- The state with other contents of NODE and CODE. -/
def withTables (n : Vector NodeEntry 511) (c : Vector CodeEntry 256) (s : State) : State :=
  { s with node := n, code := c }

/-- The contents `n'` and `c'` that a step from `withTables n c s` leaves beside the step's own state `t`: the same NODE
if it was the same, and no difference in what is valid. -/
structure Hidden (n n' : Vector NodeEntry 511) (c' : Vector CodeEntry 256) (s t : State) : Prop where
  node : n = s.node → n' = t.node
  tree : t.treeValid = true → ∀ k : Fin 511, k.val < t.nodeCount.toNat → n'[k] = t.node[k]
  codes : t.codesValid = true → c' = t.code

section
variable {n : Vector NodeEntry 511} {c : Vector CodeEntry 256} {i : Instr} {s t : State}

/-! ### Reads -/

/-- The stall looks at NODE only while a decoding is open. -/
theorem stallOf_withTables (hs : ControlInv s) (hn : s.mode = .dec → n = s.node) :
    stallOf (withTables n c s) = stallOf s := by
  have hmatch (i : Instr) (hrun : s.ph = .run) (hdec : decode s.cur = .ok i) :
      runStall i (withTables n c s) = runStall i s := by
    cases i with
    | decData =>
      obtain rfl := hn (hs.decData_mode hrun hdec).1
      rfl
    | _ => rfl
  unfold stallOf
  by_cases hrun : s.busy ∧ s.ph = .run
  · rw [if_pos hrun]
    refine (if_pos hrun).trans ?_
    cases hdec : decode s.cur with
    | error e => simp [withTables, hdec]
    | ok i => simp only [withTables, hdec]; exact hmatch i hrun.2 hdec
  · rw [if_neg hrun]
    exact if_neg hrun

/-- Every register reads the same, whatever an invalid table holds. -/
theorem busReadValue_withTables (hs : ControlInv s) (hn : s.mode = .dec → n = s.node) (off : Word) :
    busReadValue off (withTables n c s) = busReadValue off s := by
  have hstatus : statusWord (withTables n c s) = statusWord s := by
    rw [statusWord, stallOf_withTables hs hn]
    rfl
  unfold busReadValue
  cases regAt off with
  | none => rfl
  | some r =>
    cases r with
    | status => exact hstatus
    | _ => rfl

theorem busReadState_withTables (off : Word) :
    busReadState off (withTables n c s) = withTables n c (busReadState off s) := by
  unfold busReadState
  cases regAt off with
  | none => rfl
  | some r => cases r <;> rfl

/-! ### The host's accesses -/

theorem hidden_of_node_eq (hn : s.treeValid = true → n = s.node) (hnode : t.node = s.node)
    (hv : t.treeValid = true → s.treeValid = true) (hc : t.codesValid = false) : Hidden n n c s t where
  node := fun h => h.trans hnode.symm
  tree := fun h k _ => by rw [hn (hv h), hnode]
  codes := fun h => absurd (hc.symm.trans h) nofun

theorem Hidden.self : Hidden n t.node t.code s t where
  node := fun _ => rfl
  tree := fun _ _ _ => rfl
  codes := fun _ => rfl

theorem busWrite_withTables (hn : s.treeValid = true → n = s.node) (hc : s.codesValid = false) (off v : Word) :
    ∃ n' c', busWrite off v (withTables n c s) = withTables n' c' (busWrite off v s) ∧
      Hidden n n' c' s (busWrite off v s) := by
  have hkeep {u u' : State} (h : u' = withTables n c u) (hnode : u.node = s.node) (hv : u.treeValid = s.treeValid)
      (hc' : u.codesValid = s.codesValid) : ∃ n' c', u' = withTables n' c' u ∧ Hidden n n' c' s u :=
    ⟨n, c, h, hidden_of_node_eq hn hnode (fun h => hv.symm.trans h) (hc'.trans hc)⟩
  unfold busWrite
  cases regAt off with
  | none => exact hkeep rfl rfl rfl rfl
  | some r =>
    cases r with
    | status =>
      refine hkeep ?_ ?_ ?_ ?_ <;> simp only [writeReg, writeStatus_eq]
      rfl
    | cmd =>
      rcases writeCmd_cases v s with ⟨rfl, -⟩ | ⟨hv, hbusy, h⟩ | ⟨hv, hbusy, herr, h⟩
      · refine ⟨_, _, ?_, .self⟩
        simp only [writeReg, writeCmd_resetWord]
        rfl
      · simp only [writeReg, h]
        exact hkeep ((if_neg hv).trans (if_pos (by simpa [withTables] using hbusy))) rfl rfl rfl
      · simp only [writeReg, h]
        exact hkeep ((if_neg hv).trans (if_neg (by simp [hbusy, herr, withTables]))) rfl rfl rfl
    | dataIn =>
      simp only [writeReg]
      cases hfull : inFull s
      · rw [writeDataIn_of_not_full v s hfull]
        exact hkeep (writeDataIn_of_not_full v (withTables n c s) hfull) rfl rfl rfl
      · rw [writeDataIn_of_full v s hfull]
        exact hkeep (writeDataIn_of_full v (withTables n c s) hfull) rfl rfl rfl
    | _ => exact hkeep rfl rfl rfl rfl

/-! ### The engine's step -/

/-- The step of a command beside the same step with other contents of NODE and CODE. -/
def HiddenExec (i : Instr) (n : Vector NodeEntry 511) (c : Vector CodeEntry 256) (s t : State) : Prop :=
  ∃ n' c', exec i (withTables n c s) = .next (withTables n' c' t) ∧ Hidden n n' c' s t

/-- A RUN step of FT_COUNT looks at neither table. -/
theorem ftCountRun_withTables (h : ftCountRun s = .next t) :
    ftCountRun (withTables n c s) = .next (withTables n c t) := by
  rcases ftCountRun_cases h with ⟨hcnt, rfl⟩ | ⟨hcnt, hinq, rfl⟩ | ⟨b, rest, hcnt, hinq, hmax, rfl⟩ |
    ⟨b, rest, hcnt, hinq, hmax, rfl⟩
  · exact ftCountRun_of_cnt_eq_zero (s := withTables n c s) hcnt
  · exact ftCountRun_of_nil (s := withTables n c t) hcnt hinq
  · exact ftCountRun_of_max (s := withTables n c s) hcnt hinq hmax
  · exact ftCountRun_of_not_max (s := withTables n c s) hcnt hinq hmax

/-- A RUN step of DEC_DATA does not look at CODE. -/
theorem decDataRun_withTables (h : decDataRun s = .next t) :
    decDataRun (withTables s.node c s) = .next (withTables s.node c t) := by
  have hmove : walkMove (withTables s.node c s) = walkMove s := rfl
  rcases decDataRun_cases h with ⟨hsh, hw, rfl⟩ | ⟨x, hsh, hw, hout, rfl⟩ | ⟨x, hsh, hw, hout, rfl⟩ |
    ⟨nxt, hsh, hw, rfl⟩ | ⟨hsh, hcnt, hinq, rfl⟩ | ⟨b, rest, hsh, hcnt, hinq, rfl⟩ | ⟨hsh, hcnt, rfl⟩
  · exact decDataRun_of_badBit (s := withTables s.node c s) hsh (hmove.trans hw)
  · exact decDataRun_of_outFull (s := withTables t.node c t) hsh (hmove.trans hw) ((outFull_iff t).mp hout)
  · exact decDataRun_of_emit (s := withTables s.node c s) hsh (hmove.trans hw)
      (mt (outFull_iff s).mpr (by simp [hout]))
  · exact decDataRun_of_move (s := withTables s.node c s) hsh (hmove.trans hw)
  · exact decDataRun_of_nil (s := withTables t.node c t) hsh hcnt hinq
  · exact decDataRun_of_cons (s := withTables s.node c s) hsh hcnt hinq
  · exact decDataRun_of_cnt_eq_zero (s := withTables s.node c s) hsh hcnt

/-- A RUN step of ENC_FLUSH looks at neither table. -/
theorem encFlushRun_withTables (h : encFlushRun s = .next t) :
    encFlushRun (withTables n c s) = .next (withTables n c t) := by
  rcases encFlushRun_cases h with ⟨hacc, hout, rfl⟩ | ⟨hacc, hout, rfl⟩ | ⟨hacc, rfl⟩
  · exact encFlushRun_of_outFull (s := withTables n c t) hacc ((outFull_iff t).mp hout)
  · exact encFlushRun_of_partial_group (s := withTables n c s) hacc (mt (outFull_iff s).mpr (by simp [hout]))
  · exact encFlushRun_of_no_group (s := withTables n c s) hacc

theorem encFlushRun_keeps (h : encFlushRun s = .next t) : KeepsTables s t := by
  rcases encFlushRun_cases h with ⟨-, -, rfl⟩ | ⟨-, -, rfl⟩ | ⟨-, rfl⟩ <;> constructor <;> rfl

theorem decDataRun_keeps (h : decDataRun s = .next t) : KeepsTables s t := by
  rcases decDataRun_cases h with ⟨-, -, rfl⟩ | ⟨x, -, -, -, rfl⟩ | ⟨x, -, -, -, rfl⟩ | ⟨nxt, -, -, rfl⟩ |
    ⟨-, -, -, rfl⟩ | ⟨b, rest, -, -, -, rfl⟩ | ⟨-, -, rfl⟩ <;> constructor <;> rfl

section
variable (hn : s.treeValid = true → n = s.node) (hc : s.codesValid = false)
include hn hc

/-- The same step, with the same other contents after it. -/
theorem HiddenExec.of_keepsTables (tables : KeepsTables s t)
    (h : exec i (withTables n c s) = .next (withTables n c t)) : HiddenExec i n c s t :=
  ⟨n, c, h, hidden_of_node_eq hn tables.node (fun hv => tables.treeValid.symm.trans hv) (tables.codesValid.trans hc)⟩

/-- TREE_BUILD writes the nodes it makes valid, whatever NODE held (R117). -/
theorem execTreeBuild_withTables (h : execTreeBuild s = .next t) : HiddenExec .treeBuild n c s t := by
  rcases execTreeBuild_cases h with ⟨hempty, rfl⟩ | ⟨hne, nodes, root, hbuild, rfl⟩
  · exact .of_keepsTables hn hc (by constructor <;> rfl) (if_pos hempty)
  · refine ⟨storeNodes nodes 0 n, c, ?_, ⟨fun h => by rw [h]; rfl, fun _ k hk => ?_, nofun⟩⟩
    · refine (if_neg hne).trans ?_
      simp only [withTables, hbuild]
      rfl
    · have hk : k.val < nodes.length := hk.trans_le ((BitVec.toNat_ofNat ..).trans_le (Nat.mod_le ..))
      have hstored (v : Vector NodeEntry 511) : (storeNodes nodes 0 v)[k.val] = nodes[k.val] := by
        rw [storeNodes_getElem]
        simp [hk]
      exact (hstored n).trans (hstored s.node).symm

/-- CODE_GEN writes the whole code table from a valid tree (R118). -/
theorem execCodeGen_withTables (h : execCodeGen s = .next t) : HiddenExec .codeGen n c s t := by
  rcases execCodeGen_cases h with ⟨hv, rfl⟩ | ⟨hv, r, ps, hr, hps, rfl⟩
  · exact .of_keepsTables hn hc (by constructor <;> rfl) (if_pos hv)
  · obtain rfl := hn hv
    have hr' : nodeAt (withTables s.node c s) (withTables s.node c s).root = some r := hr
    have hps' : codePaths (withTables s.node c s) r = some ps := hps
    refine ⟨s.node, codeTable ps, ?_, ⟨fun _ => rfl, fun _ _ _ => rfl, fun _ => rfl⟩⟩
    rw [exec, execCodeGen, if_neg (by simp [withTables, hv]), hr']
    dsimp only
    rw [hps']
    rfl

/-- NODE_READ reads NODE of a valid tree only (R120). -/
theorem execNodeRead_withTables {k : NodeIdx} (h : execNodeRead k s = .next t) : HiddenExec (.nodeRead k) n c s t := by
  rcases execNodeRead_cases h with ⟨hv, rfl⟩ | ⟨hv, hk, rfl⟩ | ⟨hv, hk, e, he, -⟩
  · exact .of_keepsTables hn hc (by constructor <;> rfl) (if_pos hv)
  · exact .of_keepsTables hn hc (by constructor <;> rfl)
      (execNodeRead_of_nodeCount_le (s := withTables n c s) hv hk)
  · obtain rfl := hn hv
    obtain rfl := Host.Outcome.next.inj ((execNodeRead_of_lt_nodeCount hv hk he).symm.trans h)
    exact .of_keepsTables hn hc (by constructor <;> rfl)
      (execNodeRead_of_lt_nodeCount (s := withTables s.node c s) hv hk he)

/-- DEC_DATA walks NODE while a tree is valid only (R129). -/
theorem execDecData_withTables (hs : ControlInv s) (hdec : decode s.cur = .ok .decData) (h : execDecData s = .next t) :
    HiddenExec .decData n c s t := by
  rcases execDecData_cases h with ⟨hph, hm, rfl⟩ | ⟨hph, hm, hrem, rfl⟩ | ⟨hph, hm, hrem, rfl⟩ | ⟨hph, h⟩
  · exact .of_keepsTables hn hc (by constructor <;> rfl) (execDecData_of_not_dec (s := withTables n c s) hph hm)
  · have hlt : s.decRem.toNat < s.carg.toNat := by simpa [BitVec.ult] using hrem
    exact .of_keepsTables hn hc (by constructor <;> rfl) (execDecData_of_decRem_lt (s := withTables n c s) hph hm hlt)
  · have hle : s.carg.toNat ≤ s.decRem.toNat := by simpa [BitVec.ult] using hrem
    exact .of_keepsTables hn hc (by constructor <;> rfl) (execDecData_of_carg_le (s := withTables n c s) hph hm hle)
  · obtain rfl := hn (hs.decNeedsTree (hs.decData_mode hph hdec).1)
    exact .of_keepsTables hn hc (decDataRun_keeps h)
      ((execDecData_of_run (s := withTables s.node c s) hph).trans (decDataRun_withTables h))

/-- No command of an engine step observes what an invalid table holds. -/
theorem exec_withTables (hs : ControlInv s) (hdec : decode s.cur = .ok i) (hne : i ≠ .reset) (h : exec i s = .next t) :
    HiddenExec i n c s t := by
  cases i with
  | reset => exact absurd rfl hne
  | nop | fifoClr | ftRead =>
    injection h with h
    subst h
    exact .of_keepsTables hn hc (by constructor <;> rfl) rfl
  | ftClear =>
    injection h with h
    subst h
    exact ⟨n, c, rfl, hidden_of_node_eq hn rfl nofun rfl⟩
  | ftCount =>
    rcases execFtCount_cases h with ⟨hph, rfl⟩ | ⟨hph, h⟩
    · exact ⟨n, c, execFtCount_of_start (s := withTables n c s) hph, hidden_of_node_eq hn rfl nofun rfl⟩
    · have hstep := (execFtCount_of_run (s := withTables n c s) hph).trans (ftCountRun_withTables h)
      refine ⟨n, c, hstep, ?_⟩
      rcases ftCountRun_cases h with ⟨-, rfl⟩ | ⟨-, -, rfl⟩ | ⟨b, rest, -, -, -, rfl⟩ | ⟨b, rest, -, -, -, rfl⟩ <;>
        exact hidden_of_node_eq hn rfl id hc
  | ftLoad x =>
    rcases execFtLoad_cases h with ⟨hp, rfl⟩ | ⟨hp, rfl⟩
    · exact .of_keepsTables hn hc (by constructor <;> rfl) (if_pos hp)
    · exact ⟨n, c, if_neg (Bool.eq_false_iff.mp hp), hidden_of_node_eq hn rfl nofun rfl⟩
  | ftGet k =>
    rcases execFtGet_cases h with ⟨hk, rfl⟩ | ⟨sym, count, hk, rfl⟩
    · exact .of_keepsTables hn hc (by constructor <;> rfl) (by simp [exec, execFtGet, withTables, hk, raiseError])
    · exact .of_keepsTables hn hc (by constructor <;> rfl) (by simp [exec, execFtGet, withTables, hk, complete])
  | treeBuild => exact execTreeBuild_withTables hn hc h
  | codeGen => exact execCodeGen_withTables hn hc h
  | nodeRead k => exact execNodeRead_withTables hn hc h
  | codeRead x w =>
    rcases execCodeRead_cases h with ⟨-, rfl⟩ | ⟨hv, -⟩
    · exact .of_keepsTables hn hc (by constructor <;> rfl) (if_pos hc)
    · exact absurd (hc.symm.trans hv) nofun
  | encInit =>
    rcases execEncInit_cases h with ⟨-, rfl⟩ | ⟨hv, -⟩
    · exact .of_keepsTables hn hc (by constructor <;> rfl) (if_pos hc)
    · exact absurd (hc.symm.trans hv) nofun
  | encData =>
    have hm : s.mode ≠ .enc := fun hm => absurd (hc.symm.trans (hs.encNeedsCodes hm)) nofun
    rcases execEncData_cases h with ⟨hph, -, rfl⟩ | ⟨-, henc, -⟩ | ⟨hph, -⟩
    · exact .of_keepsTables hn hc (by constructor <;> rfl) (execEncData_of_not_enc (s := withTables n c s) hph hm)
    · exact absurd henc hm
    · exact absurd (hs.encData_mode hph hdec) hm
  | encFlush =>
    have hm : s.mode ≠ .enc := fun hm => absurd (hc.symm.trans (hs.encNeedsCodes hm)) nofun
    rcases execEncFlush_cases h with ⟨hph, -, rfl⟩ | ⟨-, henc, -⟩ | ⟨hph, -⟩
    · exact .of_keepsTables hn hc (by constructor <;> rfl) (execEncFlush_of_not_enc (s := withTables n c s) hph hm)
    · exact absurd henc hm
    · exact absurd (hs.encFlush_mode hph hdec) hm
  | decInit p =>
    rcases execDecInit_cases h with ⟨hv, rfl⟩ | ⟨hv, hp, rfl⟩ | ⟨hv, hp, hcarg, rfl⟩ | ⟨hv, hp, hcarg, rfl⟩
    · exact .of_keepsTables hn hc (by constructor <;> rfl) (if_pos hv)
    · exact .of_keepsTables hn hc (by constructor <;> rfl) (execDecInit_of_pad_gt (s := withTables n c s) hv hp)
    · exact .of_keepsTables hn hc (by constructor <;> rfl)
        (execDecInit_of_carg_eq_zero (s := withTables n c s) hv hp hcarg)
    · exact .of_keepsTables hn hc (by constructor <;> rfl)
        (execDecInit_of_carg_ne_zero (s := withTables n c s) hv hp hcarg)
  | decData => exact execDecData_withTables hn hc hs hdec h
  | decFinish =>
    rcases execDecFinish_cases h with ⟨hm, rfl⟩ | ⟨hm, hrem, rfl⟩ | ⟨hm, hrem, hpartial, rfl⟩ | ⟨hm, hrem, hsh, hw, rfl⟩
    · exact .of_keepsTables hn hc (by constructor <;> rfl) (execDecFinish_of_not_dec (s := withTables n c s) hm)
    · exact .of_keepsTables hn hc (by constructor <;> rfl)
        (execDecFinish_of_decRem_ne_zero (s := withTables n c s) hm hrem)
    · exact .of_keepsTables hn hc (by constructor <;> rfl)
        (execDecFinish_of_partial_symbol (s := withTables n c s) hm hrem hpartial)
    · exact .of_keepsTables hn hc (by constructor <;> rfl)
        (execDecFinish_of_end (s := withTables n c s) hm hrem hsh hw)

theorem engineStep_withTables (hs : ControlInv s) (h : engineStep s = .next t) :
    ∃ n' c', engineStep (withTables n c s) = .next (withTables n' c' t) ∧ Hidden n n' c' s t := by
  rcases engineStep_cases h with ⟨hbusy, rfl⟩ | ⟨hbusy, hph, hdec, rfl⟩ | ⟨i, hbusy, hph, hdec, hne, h⟩ |
    ⟨i, hbusy, hph, hdec, hi, h⟩
  · exact ⟨n, c, engineStep_of_idle (s := withTables n c t) hbusy, hidden_of_node_eq hn rfl id hc⟩
  · refine ⟨n, c, ?_, hidden_of_node_eq hn rfl id hc⟩
    rcases hdec with hdec | ⟨e, hdec⟩ <;> simp [engineStep, startStep, withTables, hbusy, hph, hdec, raiseError]
  · obtain ⟨n', c', hexec, hhidden⟩ := exec_withTables hn hc hs hdec hne h
    exact ⟨n', c', (engineStep_eq_exec (s := withTables n c s) hne hdec hbusy (.inl hph)).trans hexec, hhidden⟩
  · have hne := ne_reset_of_streaming hi
    obtain ⟨n', c', hexec, hhidden⟩ := exec_withTables hn hc hs hdec hne h
    exact ⟨n', c', (engineStep_eq_exec (s := withTables n c s) hne hdec hbusy (.inr ⟨hph, hi⟩)).trans hexec, hhidden⟩

theorem applyEvent_withTables (hs : ControlInv s) {e : Event} (h : applyEvent e s = .next t) :
    ∃ n' c', applyEvent e (withTables n c s) = .next (withTables n' c' t) ∧ Hidden n n' c' s t := by
  cases e with
  | engine => exact engineStep_withTables hn hc hs h
  | hwReset =>
    injection h with h
    subst h
    exact ⟨(resetState s).node, (resetState s).code, rfl, .self⟩
  | busWrite off v =>
    injection h with h
    subst h
    obtain ⟨n', c', hwrite, hhidden⟩ := busWrite_withTables (c := c) hn hc off v
    exact ⟨n', c', congrArg Host.Outcome.next hwrite, hhidden⟩
  | busRead off =>
    injection h with h
    subst h
    have hvalue := busReadValue_withTables (n := n) (c := c) hs (fun hm => hn (hs.decNeedsTree hm)) off
    refine ⟨n, c, ?_, ?_⟩
    · rw [applyEvent, hvalue, busReadState_withTables]
      rfl
    · rcases busReadState_cases off s with h | ⟨-, h⟩ <;> rw [h] <;> exact hidden_of_node_eq hn rfl id hc

/-- A step beside the same step with other contents of NODE and CODE (R164). -/
theorem step_withTables (hs : ControlInv s) (h : step s = .next t) :
    ∃ n' c', step (withTables n c s) = .next (withTables n' c' t) ∧ Hidden n n' c' s t := by
  cases hev : s.events with
  | nil =>
    rw [step_of_nil hev] at h
    rw [step_of_nil (s := withTables n c s) hev]
    exact engineStep_withTables hn hc hs h
  | cons e rest =>
    rw [step_of_cons hev] at h
    rw [step_of_cons (s := withTables n c s) hev]
    obtain ⟨n', c', hstep, hhidden⟩ := applyEvent_withTables (s := { s with events := rest }) hn hc { hs with } h
    exact ⟨n', c', hstep, { hhidden with }⟩

end

/-- Without a valid tree no step makes codes valid or opens a decoding (R55). -/
theorem invalid_of_applyEvent (hs : ControlInv s) (hv : s.treeValid = false) {e : Event}
    (h : applyEvent e s = .next t) : t.codesValid = false ∧ t.mode ≠ .dec := by
  have hc : s.codesValid = false := Bool.eq_false_iff.mpr fun hc => absurd (hv.symm.trans (hs.codesNeedTree hc)) nofun
  have ht := controlInv_applyEvent hs h
  have hkeep (tables : KeepsTables s t) : t.codesValid = false ∧ t.mode ≠ .dec :=
    ⟨tables.codesValid.trans hc, fun hm => absurd ((tables.treeValid.trans hv).symm.trans (ht.decNeedsTree hm)) nofun⟩
  cases e with
  | engine =>
    cases engineStep_tables hs h with
    | keeps tables walk => exact hkeep tables
    | invalidates tree codes mode absent => exact ⟨codes, mode⟩
    | builds nonempty tree codes mode => exact ⟨codes, mode⟩
    | generates treeBefore generated ft node root nodeCount mode => exact absurd (hv.symm.trans treeBefore) nofun
  | hwReset =>
    injection h with h
    subst h
    exact ⟨rfl, nofun⟩
  | busWrite off v =>
    injection h with h
    subst h
    rcases busWrite_keeps_or_resets off v s with ⟨tables, -⟩ | h
    · exact hkeep tables
    · rw [h]
      exact ⟨rfl, nofun⟩
  | busRead off =>
    injection h with h
    subst h
    refine hkeep ?_
    rcases busReadState_cases off s with h | ⟨-, h⟩ <;> rw [h] <;> constructor <;> rfl

theorem invalid_of_step (hs : ControlInv s) (hv : s.treeValid = false) (h : step s = .next t) :
    t.codesValid = false ∧ t.mode ≠ .dec := by
  rcases step_cases s with ⟨-, hstep⟩ | ⟨e, rest, -, hstep⟩ <;> rw [hstep] at h
  · exact invalid_of_applyEvent (e := .engine) hs hv h
  · exact invalid_of_applyEvent (s := { s with events := rest }) { hs with } hv h

end

end Sys2Proof.Machine
end

section
/-! PROOFS. The statement about what an invalid table holds (spec/70_reset_and_hazards.md). -/

namespace Sys2Proof.Proofs

open Sys2Proof.Machine

/-- Settles O23: every command checks the valid bit of a table before it reads it, and writes what it makes valid. -/
theorem invalidTablesCannotBeObserved : Obligations.InvalidTablesCannotBeObserved := by
  unfold Obligations.InvalidTablesCannotBeObserved
  refine ⟨fun s t n c hs hv h => ?_, fun s t c hs hc h => ?_⟩
  · have ht := everyStepKeepsTheControlInvariant s t hs h
    obtain ⟨hcodes, hm⟩ := invalid_of_step hs hv h
    have hc : s.codesValid = false :=
      Bool.eq_false_iff.mpr fun hc => absurd (hv.symm.trans (hs.codesNeedTree hc)) nofun
    obtain ⟨n', c', hstep, hhidden⟩ :=
      step_withTables (n := n) (c := c) (fun h => absurd (hv.symm.trans h) nofun) hc hs h
    exact ⟨_, hstep, rfl, busReadValue_withTables ht fun h => absurd h hm, hcodes, hhidden.tree⟩
  · have ht := everyStepKeepsTheControlInvariant s t hs h
    obtain ⟨n', c', hstep, hhidden⟩ := step_withTables (n := s.node) (c := c) (fun _ => rfl) hc hs h
    obtain rfl := hhidden.node rfl
    exact ⟨_, hstep, rfl, busReadValue_withTables ht fun _ => rfl, hhidden.codes⟩

end Sys2Proof.Proofs
end
